-- ==== Sys2Proof/Word.lean ====
section
/-!
DEFINITION. The words and bytes of TU-CORE.
Every register, address and count is an unsigned integer (R17) of `REG_WIDTH` bits (R31), and
`REG_WIDTH` is a parameter of the instance (R9). Rules compute on mathematical integers and reduce
`mod 2^REG_WIDTH` only where they say so (R17), so a word is a natural number, `Nat` (log 1).
A byte of local memory or of a message has 8 bits (R19).
-/

namespace Sys2Proof

/-- One byte of local memory or of a message (R19). -/
abbrev Byte := BitVec 8

/-- `bytes` values: finite sequences of bytes (R19). -/
abbrev Bytes := List Byte

end Sys2Proof
end

