-- ==== Sys2Proof/Config.lean ====
section
/-!
DEFINITION. The construction-time configuration of an instance (R9), the constraints it satisfies
(R10, D36), the reference configuration REF (R108), the register names (R30), and the free values.
-/

namespace Sys2Proof

/-- The ten registers of an endpoint (R30). -/
inductive Field where
  | mode
  | messageAddr
  | messageSize
  | targetCore
  | targetEndpoint
  | bufferAddr
  | bufferSize
  | bufferReadPtr
  | bufferWritePtr
  | bufferMessageCount
  deriving DecidableEq, Repr

/-- A register name at the register-access port: a global name or an `(e, FIELD)` pair (R45). -/
inductive RegName where
  | command
  | status
  | endpoint (e : Nat) (f : Field)
  deriving DecidableEq, Repr

/-- The parameters of R9. `unwrittenFaults` is the model's own (log 3). -/
structure Config where
  /-- ENDPOINT_COUNT -/
  endpointCount : Nat
  /-- MAX_MESSAGE_SIZE, header included -/
  maxMessageSize : Nat
  /-- OPCODE_WIDTH -/
  opcodeWidth : Nat
  /-- EP_WIDTH -/
  epWidth : Nat
  /-- OFFSET_WIDTH -/
  offsetWidth : Nat
  /-- REG_WIDTH -/
  regWidth : Nat
  /-- NET_EP_BITS, the N of the network address -/
  netEpBits : Nat
  /-- SLOT_SIZE -/
  slotSize : Nat
  /-- CORE_ID -/
  coreId : Nat
  /-- ATOMIC_MODE: true for atomic, false for timed (R350) -/
  atomicMode : Bool
  /-- LAT_REG_ACCESS (timing only) -/
  latRegAccess : Nat
  /-- LAT_CMD_TO_LOCAL_REQ (timing only) -/
  latCmdToLocalReq : Nat
  /-- LAT_LOCAL_RESP_TO_NET_REQ (timing only) -/
  latLocalRespToNetReq : Nat
  /-- LAT_NET_REQ_TO_LOCAL_REQ (timing only) -/
  latNetReqToLocalReq : Nat
  /-- LAT_LOCAL_RESP_TO_NET_RESP (timing only) -/
  latLocalRespToNetResp : Nat
  /-- REG_ADDR_MAP: external address to register name (R51, D7) -/
  regAddrMap : List (Nat × RegName)
  /-- Whether a TU-CORE step that needs a never-written register faults, which is R55 to the letter
  (true), or goes on with the value the cell holds at reset (false). See log 3. -/
  unwrittenFaults : Bool
  deriving DecidableEq, Repr

/-- HEADER_SIZE is 4 bytes (R12). -/
def Config.headerSize : Nat := 4

/-- The idle value of COMMAND (R107). -/
def Config.idleCommand : Nat := 0

/-- The constraints of construction: R10 and D36. A latency is any natural number (R11). -/
def Config.valid (c : Config) : Bool :=
  decide (c.opcodeWidth + c.epWidth + c.offsetWidth ≤ c.regWidth)
    && decide (1 ≤ c.endpointCount)
    && decide (c.endpointCount ≤ 256)
    && decide (c.endpointCount ≤ 2 ^ c.netEpBits)
    && decide (Config.headerSize + 1 ≤ c.maxMessageSize)
    && decide (c.maxMessageSize ≤ Config.headerSize + 65535)
    && decide (c.maxMessageSize - Config.headerSize ≤ c.slotSize)
    && decide (c.coreId ≤ 255)
    && decide (1 ≤ c.netEpBits)
    && decide (c.netEpBits < c.regWidth)

/-- The reference configuration REF (R108), as unit A (CORE_ID 1). REF gives no execution mode, no
latency and no register addresses: timed mode, zeros and an empty map are the model's (log 2). -/
def Config.ref : Config where
  endpointCount := 8
  maxMessageSize := 64
  opcodeWidth := 2
  epWidth := 4
  offsetWidth := 26
  regWidth := 64
  netEpBits := 4
  slotSize := 64
  coreId := 1
  atomicMode := false
  latRegAccess := 0
  latCmdToLocalReq := 0
  latLocalRespToNetReq := 0
  latNetReqToLocalReq := 0
  latLocalRespToNetResp := 0
  regAddrMap := []
  unwrittenFaults := false

/-- The free value a software read of a never-written register returns (R55, U1), before it is
reduced to the register's width. Applied to `State.freeCount` (log 4). -/
opaque Config.freeWord : Nat → Nat

/-- The free value of one byte of a local read that overlaps a concurrent write by the CPU
(R78, U4). Applied to `State.freeCount` plus the byte's index (log 7). -/
opaque Config.freeByte : Nat → Byte

/-- TICKS_TO_CYCLES, the conversion `cycles()` whose rounding is not given (R356, D35). -/
opaque Config.ticksToCycles : Nat → Nat

end Sys2Proof
end

