-- ==== Sys2Proof/Syntax.lean ====
section
/-!
DEFINITION. The operations of TU-CORE as syntax: one constructor of `Instr` per row of
spec/opcode_table.json (four command words, six events, R116), the error codes (R301), and the
transactions by which events arrive (R46 to R48).
-/

namespace Sys2Proof

/-- The thirteen runtime error codes (R301). -/
inductive ErrCode where
  | epOutOfRange
  | invalidOpcode
  | startOnReceive
  | invalidMode
  | epBusy
  | bufferEmpty
  | bufferFull
  | sizeLimit
  | unsupported
  | notReceive
  | malformed
  | remoteRejected
  | spuriousCompletion
  deriving DecidableEq, Repr

/-- The status of a network response: ACK or REJECT(code) (R115). -/
inductive NetStatus where
  | ack
  | reject (c : ErrCode)
  deriving DecidableEq, Repr

/-- The port a transaction is issued on (R40). -/
inductive Port where
  | mem
  | net
  deriving DecidableEq, Repr

/-- The discriminant of an in-flight tag: LOCAL or FORWARDED (R40). -/
inductive Disc where
  | localTag
  | forwardedTag
  deriving DecidableEq, Repr

/-- The handle by which a network-in transaction is answered: it names the originator's transaction
(R48). The spec calls it opaque; the two kinds of name are the model's (log 18). -/
inductive Reply where
  /-- a transaction the network delivers, by the number the network gave the delivery -/
  | network (n : Nat)
  /-- this unit's own transaction of endpoint `e`, delivered and answered within its step -/
  | own (e : Nat)
  deriving DecidableEq, Repr

/-- The command kind of a transaction (R46, R48). -/
inductive Kind where
  | read
  | write
  deriving DecidableEq, Repr

/-- `MemResp{tag, data}` (R46); `failed` marks the response that signals failure (R92). -/
structure MemResp where
  disc : Disc
  ep : Nat
  data : Bytes
  failed : Bool
  deriving DecidableEq, Repr

/-- `NetResp{tag, status}` (R47). -/
structure NetResp where
  disc : Disc
  ep : Nat
  status : NetStatus
  deriving DecidableEq, Repr

/-- `NetIn{addr, size, kind, data, reply}` (R48). -/
structure NetIn where
  addr : Nat
  size : Nat
  kind : Kind
  data : Bytes
  reply : Reply
  deriving DecidableEq, Repr

/-- What decoding starts from: the command word COMMAND holds, or a transaction at a port. -/
inductive Stimulus where
  | word (w : Nat)
  | memResp (r : MemResp)
  | netResp (r : NetResp)
  | netIn (t : NetIn)
  deriving DecidableEq, Repr

/-- The operations: four command words (R103) and six events (R116). -/
inductive Instr where
  /-- IDLE (R152) -/
  | idle (ep off : Nat)
  /-- START_OPERATION (R153) -/
  | startOperation (ep off : Nat)
  /-- INCREMENT_READ_POINTER (R158) -/
  | incrementReadPointer (ep off : Nat)
  /-- any other opcode (R160); `op` is its value -/
  | invalidOpcode (op ep off : Nat)
  /-- EV_TX_READ_DONE (R203) -/
  | evTxReadDone (e : Nat) (data : Bytes)
  /-- EV_TX_ACK (R206) -/
  | evTxAck (e : Nat)
  /-- EV_TX_NACK (R207) -/
  | evTxNack (e : Nat) (c : ErrCode)
  /-- EV_RX_MSG (R241) -/
  | evRxMsg (addr size : Nat) (data : Bytes) (reply : Reply)
  /-- EV_RX_UNSUPPORTED (R242) -/
  | evRxUnsupported (addr : Nat) (reply : Reply)
  /-- EV_RX_WRITE_DONE (R251) -/
  | evRxWriteDone (f : Nat)
  deriving DecidableEq, Repr

end Sys2Proof
end

