-- ==== Sys2Proof/WellFormed.lean ====
section
/-!
DEFINITION. When an operation is well formed under a configuration: its fields fit the widths the
encoding gives them (R102 for command words, R40 and R77 for tags and sizes, R48 and R240 for
arrivals).
-/

namespace Sys2Proof

/-- The fields `op`, `ep` and `off` of a command word fit their widths (R102). -/
def Config.commandFits (c : Config) (op ep off : Nat) : Bool :=
  decide (op < 2 ^ c.opcodeWidth) && decide (ep < 2 ^ c.epWidth)
    && decide (off < 2 ^ c.offsetWidth)

/-- Well-formedness, one check per field the encoding bounds. -/
def Instr.wellFormed (c : Config) : Instr → Bool
  | .idle ep off => c.commandFits 0 ep off
  | .startOperation ep off => c.commandFits 1 ep off
  | .incrementReadPointer ep off => c.commandFits 2 ep off
  | .invalidOpcode op ep off => decide (3 ≤ op) && c.commandFits op ep off
  | .evTxReadDone e data =>
      decide (e < c.endpointCount) && decide (1 ≤ data.length)
        && decide (data.length + Config.headerSize ≤ c.maxMessageSize)
  | .evTxAck e => decide (e < c.endpointCount)
  | .evTxNack e _ => decide (e < c.endpointCount)
  | .evRxMsg addr size data _ => decide (addr < 2 ^ c.regWidth) && decide (data.length = size)
  | .evRxUnsupported addr _ => decide (addr < 2 ^ c.regWidth)
  | .evRxWriteDone f => decide (f < c.endpointCount)

end Sys2Proof
end

