-- ==== Sys2Proof/Decode.lean ====
section
/-!
DEFINITION. Decoding and encoding: the command word (R100 to R109), the network address (R110,
R111), the message header (R112), the routing of transactions to events (R41, R116), and the
numbers of the error codes (R301).
-/

namespace Sys2Proof

/-! ### Bit fields -/

/-- `v[lo+width-1 : lo]`; a field of width 0 reads as 0 (R16). -/
def bitField (v lo width : Nat) : Nat := v / 2 ^ lo % 2 ^ width

/-! ### The command word -/

/-- The opcode field of a command word (R101). -/
def Config.opcodeOf (c : Config) (w : Nat) : Nat := bitField w 0 c.opcodeWidth

/-- The endpoint-id field of a command word (R101). -/
def Config.epOf (c : Config) (w : Nat) : Nat := bitField w c.opcodeWidth c.epWidth

/-- The offset field of a command word (R101). -/
def Config.offsetOf (c : Config) (w : Nat) : Nat :=
  bitField w (c.opcodeWidth + c.epWidth) c.offsetWidth

/-- The operation an opcode value selects (R103). -/
def commandOf (op ep off : Nat) : Instr :=
  match op with
  | 0 => .idle ep off
  | 1 => .startOperation ep off
  | 2 => .incrementReadPointer ep off
  | _ => .invalidOpcode op ep off

/-- Decode a command word; total, bits above the three fields are ignored (R101). -/
def decodeCommand (c : Config) (w : Nat) : Instr :=
  commandOf (c.opcodeOf w) (c.epOf w) (c.offsetOf w)

/-- Encode three fields (R102); an argument outside its field's range is refused. -/
def encodeCommand (c : Config) (op ep off : Nat) : Option Nat :=
  if c.commandFits op ep off then
    some (op ||| (ep <<< c.opcodeWidth) ||| (off <<< (c.opcodeWidth + c.epWidth)))
  else none

/-! ### Decoding what arrives -/

/-- Why a stimulus is no operation. -/
inductive Reject where
  /-- a value of more than REG_WIDTH bits is no command word (R100) -/
  | wordTooWide
  /-- the response signals failure (R92, R307) -/
  | fabricFailure (d : Disc) (e : Nat)
  /-- a write response carries data: not the length R46 gives it (R307, log 14) -/
  | responseLength (e : Nat)
  /-- no transaction is issued on NET with a FORWARDED tag (R41) -/
  | neverIssued (e : Nat)
  /-- the data's length differs from the size (R240) -/
  | netInLength
  deriving DecidableEq, Repr

/-- Route a memory response by its tag (R41). One that is wrong in several ways stops by its failure
first, and then a write's by its data, before its tag and the endpoint's state are looked at: the
order is the model's choice (log 28). -/
def decodeMemResp (r : MemResp) : Except Reject Instr :=
  if r.failed then .error (.fabricFailure r.disc r.ep)
  else
    match r.disc with
    | .localTag => .ok (.evTxReadDone r.ep r.data)
    | .forwardedTag =>
        if r.data = [] then .ok (.evRxWriteDone r.ep) else .error (.responseLength r.ep)

/-- Route a network response by its tag and status (R41, R116). -/
def decodeNetResp (r : NetResp) : Except Reject Instr :=
  match r.disc with
  | .forwardedTag => .error (.neverIssued r.ep)
  | .localTag =>
      match r.status with
      | .ack => .ok (.evTxAck r.ep)
      | .reject c => .ok (.evTxNack r.ep c)

/-- Classify an incoming transaction by its command kind (R114), after the length check that R240
makes of every arrival, whatever its kind (U7). -/
def decodeNetIn (t : NetIn) : Except Reject Instr :=
  if t.data.length = t.size then
    match t.kind with
    | .write => .ok (.evRxMsg t.addr t.size t.data t.reply)
    | .read => .ok (.evRxUnsupported t.addr t.reply)
  else .error .netInLength

/-- Decode a stimulus: total, rejecting by name. -/
def decode (c : Config) : Stimulus → Except Reject Instr
  | .word w => if w < 2 ^ c.regWidth then .ok (decodeCommand c w) else .error .wordTooWide
  | .memResp r => decodeMemResp r
  | .netResp r => decodeNetResp r
  | .netIn t => decodeNetIn t

/-! ### Encoding -/

/-- The stimulus of an operation, written from the same tables (R102, R116), for any fields. -/
def stimulusOf (c : Config) : Instr → Option Stimulus
  | .idle ep off => (encodeCommand c 0 ep off).map .word
  | .startOperation ep off => (encodeCommand c 1 ep off).map .word
  | .incrementReadPointer ep off => (encodeCommand c 2 ep off).map .word
  | .invalidOpcode op ep off => (encodeCommand c op ep off).map .word
  | .evTxReadDone e data => some (.memResp ⟨.localTag, e, data, false⟩)
  | .evTxAck e => some (.netResp ⟨.localTag, e, .ack⟩)
  | .evTxNack e k => some (.netResp ⟨.localTag, e, .reject k⟩)
  | .evRxMsg addr size data reply => some (.netIn ⟨addr, size, .write, data, reply⟩)
  | .evRxUnsupported addr reply => some (.netIn ⟨addr, 0, .read, [], reply⟩)
  | .evRxWriteDone f => some (.memResp ⟨.forwardedTag, f, [], false⟩)

/-- Encode an operation; an ill-formed one is refused and nothing is truncated (R102, D24). -/
def encode (c : Config) (i : Instr) : Option Stimulus :=
  if i.wellFormed c then stimulusOf c i else none

/-! ### The network address -/

/-- `((coreId << N) | epId) mod 2^REG_WIDTH`, evaluated literally, with no mask (R110). -/
def Config.encodeNetworkAddress (c : Config) (core ep : Nat) : Nat :=
  ((core <<< c.netEpBits) ||| ep) % 2 ^ c.regWidth

/-- The destination endpoint `addr[N-1:0]` (R111). -/
def Config.netEpOf (c : Config) (addr : Nat) : Nat := bitField addr 0 c.netEpBits

/-- The destination core `addr >> N` (R111). -/
def Config.netCoreOf (c : Config) (addr : Nat) : Nat := addr >>> c.netEpBits

/-! ### The message header -/

/-- `le16(v) = [v mod 256, v div 256]` (R19). -/
def le16 (v : Nat) : Bytes := [BitVec.ofNat 8 (v % 256), BitVec.ofNat 8 (v / 256)]

/-- The value of two little-endian bytes (R246). -/
def ofLe16 (lo hi : Byte) : Nat := lo.toNat + 256 * hi.toNat

/-- `header(c, e, n) = [c, e] ++ le16(n)` (R112). -/
def header (core ep len : Nat) : Bytes := [BitVec.ofNat 8 core, BitVec.ofNat 8 ep] ++ le16 len

/-! ### Error numbers -/

/-- The number of an error code (R301); 0 means no error and is no code. -/
def ErrCode.number : ErrCode → Nat
  | .epOutOfRange => 1
  | .invalidOpcode => 2
  | .startOnReceive => 3
  | .invalidMode => 4
  | .epBusy => 5
  | .bufferEmpty => 6
  | .bufferFull => 7
  | .sizeLimit => 8
  | .unsupported => 9
  | .notReceive => 10
  | .malformed => 11
  | .remoteRejected => 12
  | .spuriousCompletion => 13

/-! ### The opcode table's words -/

/-- The operation the decoder reads from a word of spec/opcode_table.json. The table's match and
mask columns are over REF's command word (R108, R120), which is one word of 64 bits. -/
def decodeTableWord (nbits w : Nat) : Option Instr :=
  if nbits = 0 ∨ Config.ref.regWidth < nbits then none
  else (decode Config.ref (.word w)).toOption

end Sys2Proof
end

