-- ==== Sys2Proof/Machine/State.lean ====
section
/-!
DEFINITION. The state of one TU-CORE instance as plain data (10_state.md), the reasons a step can
stop, and the state after reset.
-/

namespace Sys2Proof.Machine

/-- A per-endpoint register: its value, and whether it has been written since reset (R54, R55). -/
structure Reg where
  value : Nat
  written : Bool
  deriving DecidableEq, Repr

/-- `txctx[e]`, the context captured at TX acceptance (R42). -/
structure TxCtx where
  msgAddr : Nat
  length : Nat
  targetCore : Nat
  targetEp : Nat
  deriving DecidableEq, Repr

/-- `rxctx[f]`, the context captured at RX acceptance (R43). -/
structure RxCtx where
  srcCore : Nat
  srcEp : Nat
  length : Nat
  payload : Bytes
  reply : Reply
  deriving DecidableEq, Repr

/-- `state[e]` with the context that is defined in it (R38, R42, R43; log 15). -/
inductive Activity where
  | idle
  | transmitting (c : TxCtx)
  | receiving (c : RxCtx)
  deriving DecidableEq, Repr

/-- One endpoint: its ten registers (R30) and its operation state (R38). -/
structure Endpoint where
  mode : Reg
  messageAddr : Reg
  messageSize : Reg
  targetCore : Reg
  targetEndpoint : Reg
  bufferAddr : Reg
  bufferSize : Reg
  bufferReadPtr : Reg
  bufferWritePtr : Reg
  bufferMessageCount : Reg
  activity : Activity
  deriving DecidableEq, Repr

/-- An entry of `outstanding`: the port and tag of R40, with the address and size of its request
and, for a local read, the spans the CPU has written since it was issued (R78; log 7, log 24). -/
structure Txn where
  port : Port
  disc : Disc
  ep : Nat
  addr : Nat
  size : Nat
  raced : List (Nat × Nat)
  deriving DecidableEq, Repr

/-- A response at the register-access port (R45). -/
inductive AccessResp where
  | writeDone (n : RegName)
  | readValue (n : RegName) (v : Nat)
  deriving DecidableEq, Repr

/-- A pending continuation of timed mode (R44, R352, R353). -/
inductive Continuation where
  /-- the executor run and then the response of the COMMAND write that caused it (R150) -/
  | execute
  /-- the response of another register access (R150, R356) -/
  | respond (r : AccessResp)
  /-- TX_ISSUE_READ (R202) -/
  | txIssueRead (e : Nat)
  /-- TX_SEND (R204) -/
  | txSend (e : Nat) (msg : Bytes)
  /-- TX_FINAL (R206) -/
  | txFinal (e : Nat) (s : NetStatus)
  /-- RX_ISSUE_WRITE (R250) -/
  | rxIssueWrite (f : Nat)
  /-- RX_FINISH (R252) -/
  | rxFinish (f : Nat)
  deriving DecidableEq, Repr

/-- `MemReq{addr, size, kind, data, tag}` (R46). -/
structure MemReq where
  addr : Nat
  size : Nat
  kind : Kind
  data : Bytes
  disc : Disc
  ep : Nat
  deriving DecidableEq, Repr

/-- `NetReq{addr, size, kind = write, data, tag}` (R47). -/
structure NetReq where
  addr : Nat
  size : Nat
  data : Bytes
  disc : Disc
  ep : Nat
  deriving DecidableEq, Repr

/-- `NetInResp{reply, status}` (R48). -/
structure NetInResp where
  reply : Reply
  status : NetStatus
  deriving DecidableEq, Repr

/-- The sub-block that raised a report (R49). -/
inductive Origin where
  | exec
  | tx
  | rx
  deriving DecidableEq, Repr

/-- `Report{origin, code, ep, detail}` (R49, R302). -/
structure Report where
  origin : Origin
  code : ErrCode
  ep : Nat
  detail : Nat
  deriving DecidableEq, Repr

/-- What the local memory does with one request of atomic mode within the step that issues it (R13
e, R92, R351; log 26). -/
inductive MemAnswer where
  /-- it answers from its bytes: a read with them, a write with a completion -/
  | served
  /-- it answers with this data, or signals failure -/
  | response (data : Bytes) (failed : Bool)
  /-- it does not answer within the step (U8) -/
  | silent
  deriving DecidableEq, Repr

/-- What the environment does next (R13, R309, R352; log 8). -/
inductive Event where
  /-- `RegWrite(name, value)` (R45) -/
  | regWrite (n : RegName) (v : Nat)
  /-- `RegRead(name)` (R45) -/
  | regRead (n : RegName)
  /-- a register write of `width` bits at an external address (R51, R74) -/
  | extWrite (addr : Nat) (width : Nat) (v : Nat)
  /-- a register read of `width` bits at an external address (R51, R74) -/
  | extRead (addr : Nat) (width : Nat)
  /-- `MemResp` as the fabric gives it (R46) -/
  | memResp (r : MemResp)
  /-- the local memory answers the outstanding request of a tag from its bytes (R46; log 7) -/
  | memServe (d : Disc) (e : Nat)
  /-- `NetResp` (R47) -/
  | netResp (r : NetResp)
  /-- `NetIn` (R48) -/
  | netIn (t : NetIn)
  /-- the CPU, another agent of local memory, writes bytes (R78, D45) -/
  | cpuWrite (addr : Nat) (data : Bytes)
  /-- the pending continuation at this index runs (R352) -/
  | run (k : Nat)
  deriving DecidableEq, Repr

/-- Local memory: (address, byte) pairs in canonical form (R70). -/
abbrev Memory := List Host.Cell

/-- What an address no pair lists reads as (log 5). -/
def Memory.unlisted : Byte := 0

/-- The canonical form: addresses strictly rising, no entry equal to the unlisted byte. -/
abbrev Memory.wf (m : Memory) : Prop :=
  m.Pairwise (fun x y => x.1 < y.1) ∧ ∀ x ∈ m, x.2 ≠ Memory.unlisted

/-- Why the machine stops (R307). -/
inductive Fault where
  /-- raised by a step that needs the value of register `f` of endpoint `e`, never written since
  reset, when `Config.unwrittenFaults` is set (R55, U2). Safe: the model stops. -/
  | unwrittenRegister (e : Nat) (f : Field)
  /-- raised on a memory response that signals failure (R92, U5). Safe: the model stops. -/
  | fabricFailure (d : Disc) (e : Nat)
  /-- raised on a memory response whose data has the wrong length (R203, U5). Safe. -/
  | responseLength (e : Nat)
  /-- raised on a response that matches no outstanding tag (R92, U6). Safe. -/
  | unmatchedResponse (p : Port) (d : Disc) (e : Nat)
  /-- raised on an arrival whose data length differs from its size (R240, U7). Safe. -/
  | netInLength
  /-- raised by a continuation whose endpoint holds no context (U3: no rule reads a context outside
  its operation, so no run of the rules comes here). Safe: the model stops. -/
  | noContext (e : Nat)
  deriving DecidableEq, Repr

/-- What the model does not accept. -/
inductive Refusal where
  /-- raised by exec's arm of an instruction that has no meaning yet. Safe. -/
  | notModelled (mnemonic : String)
  /-- raised by step on a configuration outside R10 and D36 (R305, U9). Safe. -/
  | badConfiguration
  /-- raised by a register access narrower or wider than REG_WIDTH (R74, U10). Safe. -/
  | partialWidthAccess
  /-- raised by an access to an external address REG_ADDR_MAP does not map (R51, log 16). Safe. -/
  | unmappedAddress (addr : Nat)
  /-- raised by an access to a register of an endpoint that does not exist (R30, log 16). Safe. -/
  | noSuchRegister (n : RegName)
  deriving DecidableEq, Repr

/-- The state of one TU-CORE instance. -/
structure State where
  /-- the construction-time configuration (R9); no step changes it -/
  cfg : Config
  /-- COMMAND (R32) -/
  command : Nat
  /-- STATUS (R33) -/
  status : Nat
  /-- the endpoints 0 .. ENDPOINT_COUNT-1 (R30, R38, R42, R43) -/
  endpoints : List Endpoint
  /-- `outstanding` (R40) -/
  outstanding : List Txn
  /-- `pending` (R44) -/
  pending : List Continuation
  /-- local memory (R70) -/
  mem : Memory
  /-- requests issued on the memory port, oldest first (R46; log 11) -/
  memOut : List MemReq
  /-- requests issued on the network-out port, oldest first (R47; log 11) -/
  netOut : List NetReq
  /-- responses sent on the network-in port, oldest first (R48; log 11) -/
  netInOut : List NetInResp
  /-- the report output, oldest first (R49) -/
  reports : List Report
  /-- responses delivered at the register-access port, oldest first (R45; log 11) -/
  accessOut : List AccessResp
  /-- the environment's next events, the next one first (the model's own; log 8) -/
  timeline : List Event
  /-- the network's answers to network writes in atomic mode (the model's own; log 9) -/
  netAnswers : List NetStatus
  /-- the local memory's answers to requests in atomic mode; where none is listed it answers from
  its bytes (the model's own; log 26) -/
  memAnswers : List MemAnswer
  /-- how many free values have been drawn (the model's own; log 4) -/
  freeCount : Nat
  deriving DecidableEq, Repr

/-- A register after reset: unwritten (R54). The value its cell holds is the model's (log 3). -/
def Reg.unwritten : Reg := ⟨0, false⟩

/-- An endpoint after reset: ten unwritten registers and Idle (R54). -/
def Endpoint.reset : Endpoint where
  mode := .unwritten
  messageAddr := .unwritten
  messageSize := .unwritten
  targetCore := .unwritten
  targetEndpoint := .unwritten
  bufferAddr := .unwritten
  bufferSize := .unwritten
  bufferReadPtr := .unwritten
  bufferWritePtr := .unwritten
  bufferMessageCount := .unwritten
  activity := .idle

/-- The state construction establishes from a configuration (R54, R340, R341). -/
def State.ofConfig (c : Config) : State where
  cfg := c
  command := Config.idleCommand
  status := 0
  endpoints := List.replicate c.endpointCount Endpoint.reset
  outstanding := []
  pending := []
  mem := []
  memOut := []
  netOut := []
  netInOut := []
  reports := []
  accessOut := []
  timeline := []
  netAnswers := []
  memAnswers := []
  freeCount := 0

/-- Construction refuses a configuration outside R10 and D36 (R305, U9). -/
def State.construct (c : Config) : Option State :=
  if c.valid then some (State.ofConfig c) else none

/-- The machine right after reset: an instance of REF (R108, R340; log 2). -/
def State.reset : State := State.ofConfig Config.ref

end Sys2Proof.Machine
end

