-- ==== Sys2Proof/Machine/Ops.lean ====
section
/-!
DEFINITION. The named operations over the state: memory, registers, activities, tags, ports,
reports and scheduling. An error is a report, not a trap (R310): `State.raise` is what taking an
error does, and there is nothing to return from (R311).
-/

namespace Sys2Proof.Machine

/-! ### Outcomes -/

/-- A step or a part of one that yields an `α`, or stops. -/
abbrev Ans (α : Type) := Host.Outcome α Fault Refusal

/-- Go on with the value of an outcome, or stop as it stopped. -/
def andThen {α β : Type} (x : Ans α) (f : α → Ans β) : Ans β :=
  match x with
  | .next a => f a
  | .fault r => .fault r
  | .refused r => .refused r

/-! ### Local memory -/

/-- The byte at an address. -/
def readByte : Memory → Nat → Byte
  | [], _ => Memory.unlisted
  | (k, b) :: rest, a => if k = a then b else readByte rest a

/-- Put a byte in front of memory whose addresses are all higher; the unlisted byte is not listed.
-/
def consByte (a : Nat) (b : Byte) (m : Memory) : Memory :=
  if b = Memory.unlisted then m else (a, b) :: m

/-- Write one byte, keeping the canonical form. -/
def writeByte : Memory → Nat → Byte → Memory
  | [], a, b => consByte a b []
  | (k, v) :: rest, a, b =>
      if a < k then consByte a b ((k, v) :: rest)
      else if a = k then consByte a b rest
      else (k, v) :: writeByte rest a b

/-- The address of byte `i` of a transaction at `a`: it wraps at the top of the space (R76, D43). -/
def byteAddr (c : Config) (a : Nat) (i : Nat) : Nat := (a + i) % 2 ^ c.regWidth

/-- Write bytes at consecutive addresses (R76), the first at `a`. -/
def writeBytes (c : Config) (m : Memory) (a : Nat) : Bytes → Memory
  | [] => m
  | b :: bs => writeBytes c (writeByte m (byteAddr c a 0) b) (a + 1) bs

/-- The `n` bytes at `a` (R76). -/
def readBytes (c : Config) (m : Memory) (a : Nat) (n : Nat) : Bytes :=
  (List.range n).map fun i => readByte m (byteAddr c a i)

/-- Whether an address is one of the `len` addresses that begin at `start` (R76). -/
def inSpan (c : Config) (span : Nat × Nat) (a : Nat) : Bool :=
  decide ((a + (2 ^ c.regWidth - span.1 % 2 ^ c.regWidth)) % 2 ^ c.regWidth < span.2)

/-- Whether a local read overlaps a write the CPU made while it was in flight (R78). -/
def Txn.overlapsWrite (c : Config) (t : Txn) : Bool :=
  (List.range t.size).any fun i => t.raced.any fun span => inSpan c span (byteAddr c t.addr i)

/-- The bytes a local read answers with: memory's, but every byte a free value where the read
overlaps a concurrent write of the CPU (R78, U4). `k` is the count of free values drawn before. -/
def servedBytes (c : Config) (m : Memory) (k : Nat) (t : Txn) : Bytes :=
  if t.overlapsWrite c then (List.range t.size).map fun i => Config.freeByte (k + i)
  else readBytes c m t.addr t.size

/-- Local memory after a write of bytes. -/
def State.writeMem (s : State) (a : Nat) (bs : Bytes) : State :=
  { s with mem := writeBytes s.cfg s.mem a bs }

/-! ### Registers -/

/-- An endpoint's register by name (R30). -/
def Endpoint.get (p : Endpoint) : Field → Reg
  | .mode => p.mode
  | .messageAddr => p.messageAddr
  | .messageSize => p.messageSize
  | .targetCore => p.targetCore
  | .targetEndpoint => p.targetEndpoint
  | .bufferAddr => p.bufferAddr
  | .bufferSize => p.bufferSize
  | .bufferReadPtr => p.bufferReadPtr
  | .bufferWritePtr => p.bufferWritePtr
  | .bufferMessageCount => p.bufferMessageCount

/-- Replace an endpoint's register by name. -/
def Endpoint.set (p : Endpoint) (f : Field) (r : Reg) : Endpoint :=
  match f with
  | .mode => { p with mode := r }
  | .messageAddr => { p with messageAddr := r }
  | .messageSize => { p with messageSize := r }
  | .targetCore => { p with targetCore := r }
  | .targetEndpoint => { p with targetEndpoint := r }
  | .bufferAddr => { p with bufferAddr := r }
  | .bufferSize => { p with bufferSize := r }
  | .bufferReadPtr => { p with bufferReadPtr := r }
  | .bufferWritePtr => { p with bufferWritePtr := r }
  | .bufferMessageCount => { p with bufferMessageCount := r }

/-- Endpoint `e`; an id past the list reads as an endpoint after reset. -/
def State.ep (s : State) (e : Nat) : Endpoint := s.endpoints[e]?.getD Endpoint.reset

/-- Change endpoint `e`, if it exists. -/
def State.modifyEp (s : State) (e : Nat) (g : Endpoint → Endpoint) : State :=
  { s with endpoints := s.endpoints.modify e g }

/-- The register a name and an endpoint id give. -/
def State.reg (s : State) (e : Nat) (f : Field) : Reg := (s.ep e).get f

/-- A value as a register stores it: reduced `mod 2^REG_WIDTH` (R31). -/
def fitWord (c : Config) (v : Nat) : Nat := v % 2 ^ c.regWidth

/-- `ep[e].FIELD <- v` (R18, R31). -/
def State.setReg (s : State) (e : Nat) (f : Field) (v : Nat) : State :=
  s.modifyEp e fun p => p.set f ⟨fitWord s.cfg v, true⟩

/-- `reg[COMMAND] <- v` (R18, R31). -/
def State.setCommand (s : State) (v : Nat) : State := { s with command := fitWord s.cfg v }

/-- `reg[STATUS] <- v` (R18, R31). -/
def State.setStatus (s : State) (v : Nat) : State := { s with status := fitWord s.cfg v }

/-! ### The operation state -/

/-- `state[e]` with its context (R38). -/
def State.activity (s : State) (e : Nat) : Activity := (s.ep e).activity

/-- `state[e] <- a` (R38). -/
def State.setActivity (s : State) (e : Nat) (a : Activity) : State :=
  s.modifyEp e fun p => { p with activity := a }

/-! ### Reports and port outputs -/

/-- `raise`: append one report (R18, R302). -/
def State.raise (s : State) (o : Origin) (k : ErrCode) (e detail : Nat) : State :=
  { s with reports := s.reports ++ [⟨o, k, e, detail⟩] }

/-- Respond on the network-in port (R48). -/
def State.respondNet (s : State) (reply : Reply) (st : NetStatus) : State :=
  { s with netInOut := s.netInOut ++ [⟨reply, st⟩] }

/-- Deliver a response at the register-access port (R45). -/
def State.respondAccess (s : State) (r : AccessResp) : State :=
  { s with accessOut := s.accessOut ++ [r] }

/-! ### In-flight tags -/

/-- Whether an entry of `outstanding` carries this port and tag (R40). -/
def Txn.hasTag (t : Txn) (p : Port) (d : Disc) (e : Nat) : Bool :=
  decide (t.port = p) && decide (t.disc = d) && decide (t.ep = e)

/-- `outstanding ∪ {(port, disc, e)}`: a set holds one entry of a port and tag (R40; log 24). -/
def State.addTag (s : State) (t : Txn) : State :=
  { s with
    outstanding := s.outstanding.filter (fun x => !x.hasTag t.port t.disc t.ep) ++ [t] }

/-- `outstanding \ {(port, disc, e)}`; a response that matches no outstanding tag faults (R92). -/
def takeTag (p : Port) (d : Disc) (e : Nat) (s : State) : Ans State :=
  if s.outstanding.any (fun x => x.hasTag p d e) then
    .next { s with outstanding := s.outstanding.filter (fun x => !x.hasTag p d e) }
  else .fault (.unmatchedResponse p d e)

/-- `issue MemReq` on MEM with its tag (R18, R46). -/
def State.issueMem (s : State) (r : MemReq) : State :=
  ({ s with memOut := s.memOut ++ [r] } : State).addTag
    { port := .mem, disc := r.disc, ep := r.ep, addr := r.addr, size := r.size, raced := [] }

/-- `issue NetReq` on NET with its tag (R18, R47). -/
def State.issueNet (s : State) (r : NetReq) : State :=
  ({ s with netOut := s.netOut ++ [r] } : State).addTag
    { port := .net, disc := r.disc, ep := r.ep, addr := r.addr, size := r.size, raced := [] }

/-- The CPU has written a span: every local read in flight may see old or new bytes there (R78). -/
def State.markRaced (s : State) (span : Nat × Nat) : State :=
  { s with
    outstanding := s.outstanding.map fun t =>
      if t.port = .mem ∧ t.disc = .localTag then { t with raced := t.raced ++ [span] } else t }

/-! ### The local memory's answers in atomic mode -/

/-- The next of the environment's answers is used up. -/
def State.dropMemAnswer (s : State) : State := { s with memAnswers := s.memAnswers.tail }

/-- The local memory's part in atomic mode, for a request just issued with this tag (R351): the next
of `memAnswers`, or, where none is listed, an answer from its bytes (log 26). `bytes` are those it
holds, `done` handles the response; one that signals failure faults (R92), and with none the request
stays outstanding (U8). -/
def memAnswered (d : Disc) (e : Nat) (bytes : Bytes) (done : Bytes → State → Ans State)
    (s : State) : Ans State :=
  match s.memAnswers.headD .served with
  | .served => done bytes s.dropMemAnswer
  | .response data failed =>
      if failed then .fault (.fabricFailure d e) else done data s.dropMemAnswer
  | .silent => .next s.dropMemAnswer

/-! ### Scheduling -/

/-- `sched K after L`: in atomic mode `K` runs at once within the step (R351), in timed mode it
becomes pending (R352). -/
def sched (k : Continuation) (now : State → Ans State) (s : State) : Ans State :=
  if s.cfg.atomicMode then now s else .next { s with pending := s.pending ++ [k] }

end Sys2Proof.Machine
end

