-- ==== Sys2Proof/Machine/Operands.lean ====
section
/-!
DEFINITION. The operand forms: a register a step needs (R55), the captured TX context (R42, R201),
the header and payload of an arriving message (R246), and the message a sender builds (R205).
-/

namespace Sys2Proof.Machine

/-- The value of a register that a TU-CORE step needs. With `Config.unwrittenFaults` a register
never written since reset stops the step, by name (R55, U2); without it the step goes on with the
value the cell holds at reset (log 3). -/
def needReg (e : Nat) (f : Field) (s : State) : Ans Nat :=
  if s.cfg.unwrittenFaults && !(s.reg e f).written then .fault (.unwrittenRegister e f)
  else .next (s.reg e f).value

/-- CAPTURE(e) (R201). -/
def capture (e : Nat) (s : State) : Ans TxCtx :=
  andThen (needReg e .messageAddr s) fun addr =>
  andThen (needReg e .messageSize s) fun len =>
  andThen (needReg e .targetCore s) fun core =>
  andThen (needReg e .targetEndpoint s) fun ep =>
  .next ⟨addr, len, core, ep⟩

/-- The message of an operation: header bytes followed by the read payload (R205). -/
def messageOf (c : Config) (e len : Nat) (payload : Bytes) : Bytes :=
  header c.coreId e len ++ payload

/-- Header extraction (R246): source core, source endpoint, length and payload; none for fewer
bytes than a header has. -/
def splitMessage : Bytes → Option (Nat × Nat × Nat × Bytes)
  | core :: ep :: lo :: hi :: payload => some (core.toNat, ep.toNat, ofLe16 lo hi, payload)
  | _ => none

/-- The four values FC_ADVANCE reads at the start of its step (R180). -/
structure RingRegs where
  base : Nat
  cap : Nat
  occ : Nat
  ptr : Nat
  deriving DecidableEq, Repr

/-- Read them; `f` is the pointer of the direction (R180, R182, R183). -/
def ringRegs (e : Nat) (f : Field) (s : State) : Ans RingRegs :=
  andThen (needReg e .bufferAddr s) fun base =>
  andThen (needReg e .bufferSize s) fun cap =>
  andThen (needReg e .bufferMessageCount s) fun occ =>
  andThen (needReg e f s) fun ptr =>
  .next ⟨base, cap, occ, ptr⟩

end Sys2Proof.Machine
end

