-- ==== Sys2Proof/Machine/Flags.lean ====
section
/-!
DEFINITION. The conditions the rules compute: the busy indicator (R33), the two modes (R35), the
size limit (R156, R244), full and empty (R181, R247), and the idle test (R155, R245).
-/

namespace Sys2Proof.Machine

/-- STATUS when the unit is busy (R33). -/
def statusBusy : Nat := 1

/-- STATUS when the unit is not busy (R33). -/
def statusIdle : Nat := 0

/-- MODE value TRANSMIT (R35). -/
def modeTransmit : Nat := 0

/-- MODE value RECEIVE (R35). -/
def modeReceive : Nat := 1

/-- `state[e] = Idle` (R155, R245). -/
def State.isIdle (s : State) (e : Nat) : Bool := decide (s.activity e = .idle)

/-- The transmit size limit is violated: length 0, or length + 4 above MAX_MESSAGE_SIZE (R156). -/
def sizeViolates (c : Config) (len : Nat) : Bool :=
  decide (len = 0) || decide (c.maxMessageSize < len + Config.headerSize)

/-- Empty: a consumer advance needs `occ > 0` (R182). -/
def ringEmpty (r : RingRegs) : Bool := decide (r.occ = 0)

/-- Full: a producer advance needs `occ < cap` (R183, R247). -/
def ringFull (occ cap : Nat) : Bool := decide (cap ≤ occ)

/-- The pointer after an advance, before it is stored: on mathematical integers (R181, R184). -/
def nextPointer (slot : Nat) (r : RingRegs) : Nat :=
  if r.base + r.cap * slot ≤ r.ptr + slot then r.base else r.ptr + slot

end Sys2Proof.Machine
end

