-- ==== Sys2Proof/Machine/FlowControl.lean ====
section
/-!
DEFINITION. The ring-buffer controller FC_ADVANCE (41_ring_buffer.md).
-/

namespace Sys2Proof.Machine

/-- FC_ADVANCE(e, READ), the consumer advance (R182); origin EXEC. -/
def fcAdvanceRead (e : Nat) (s : State) : Ans State :=
  andThen (ringRegs e .bufferReadPtr s) fun r =>
  if ringEmpty r then .next (s.raise .exec .bufferEmpty e 0)
  else
    .next ((s.setReg e .bufferReadPtr (nextPointer s.cfg.slotSize r)).setReg e
      .bufferMessageCount (r.occ - 1))

/-- FC_ADVANCE(e, WRITE), the producer advance (R183); origin RX. The status says whether it
succeeded, as RX_FINISH answers it (R252). -/
def fcAdvanceWrite (e : Nat) (s : State) : Ans (State × NetStatus) :=
  andThen (ringRegs e .bufferWritePtr s) fun r =>
  if ringFull r.occ r.cap then .next (s.raise .rx .bufferFull e 0, .reject .bufferFull)
  else
    .next ((s.setReg e .bufferWritePtr (nextPointer s.cfg.slotSize r)).setReg e
      .bufferMessageCount (r.occ + 1), .ack)

end Sys2Proof.Machine
end

