-- ==== Sys2Proof/Machine/Receive.lean ====
section
/-!
DEFINITION. The receive sequencer (43_receive.md): RX_ARRIVE, RX_REJECT, RX_ACCEPT,
RX_ISSUE_WRITE, RX_WRITE_DONE, RX_FINISH, and the meanings of EV_RX_MSG, EV_RX_UNSUPPORTED and
EV_RX_WRITE_DONE.
-/

namespace Sys2Proof.Machine

/-- RX_REJECT(reply, c, f): answer the originator and report (R249). -/
def rxReject (reply : Reply) (k : ErrCode) (f : Nat) (s : State) : State :=
  (s.respondNet reply (.reject k)).raise .rx k f 0

/-- RX_FINISH(f): the producer advance, then the answer, then Idle (R252, R253). -/
def rxFinish (f : Nat) (s : State) : Ans State :=
  match s.activity f with
  | .receiving c =>
      andThen (fcAdvanceWrite f s) fun r =>
      .next ((r.1.respondNet c.reply r.2).setActivity f .idle)
  | _ => .fault (.noContext f)

/-- RX_WRITE_DONE(f) (R251). -/
def rxWriteDone (f : Nat) (s : State) : Ans State :=
  andThen (takeTag .mem .forwardedTag f s) fun t =>
  match t.activity f with
  | .receiving _ => sched (.rxFinish f) (rxFinish f) t
  | _ => .next (t.raise .rx .spuriousCompletion f 0)

/-- The memory's response to the write of endpoint `f`; one that carries data has the wrong length
(R307; log 14). -/
def rxWriteResponse (f : Nat) (data : Bytes) (s : State) : Ans State :=
  if data = [] then rxWriteDone f s else .fault (.responseLength f)

/-- RX_ISSUE_WRITE(f): the write goes to the write pointer as it stands at this step (R250). The
bytes change in local memory at this step (log 6). In atomic mode the memory answers within it, as
the environment says (R13, R351; log 26). -/
def rxIssueWrite (f : Nat) (s : State) : Ans State :=
  match s.activity f with
  | .receiving c =>
      andThen (needReg f .bufferWritePtr s) fun wptr =>
      let t := (s.issueMem ⟨wptr, c.length, .write, c.payload, .forwardedTag, f⟩).writeMem
        wptr c.payload
      if t.cfg.atomicMode then memAnswered .forwardedTag f [] (rxWriteResponse f) t else .next t
  | _ => .fault (.noContext f)

/-- RX_ACCEPT (R248). -/
def rxAccept (f : Nat) (c : RxCtx) (s : State) : Ans State :=
  sched (.rxIssueWrite f) (rxIssueWrite f) (s.setActivity f (.receiving c))

/-- The checks of a message for a RECEIVE endpoint that is Idle: malformed, size, occupancy, then
acceptance (R241, R244, R247). -/
def rxMessage (f size : Nat) (data : Bytes) (reply : Reply) (s : State) : Ans State :=
  match splitMessage data with
  | none => .next (rxReject reply .malformed f s)
  | some (sc, se, n, payload) =>
      if n = 0 ∨ n + Config.headerSize ≠ size then .next (rxReject reply .malformed f s)
      else if s.cfg.maxMessageSize < size then .next (rxReject reply .sizeLimit f s)
      else
        andThen (needReg f .bufferMessageCount s) fun occ =>
        andThen (needReg f .bufferSize s) fun cap =>
        if ringFull occ cap then .next (rxReject reply .bufferFull f s)
        else rxAccept f ⟨sc, se, n, payload, reply⟩ s

/-- RX_ARRIVE for a message: range, mode and busy checks, then `rxMessage` (R241, R243, R245). -/
def rxArrive (addr size : Nat) (data : Bytes) (reply : Reply) (s : State) : Ans State :=
  let f := s.cfg.netEpOf addr
  if s.cfg.endpointCount ≤ f then .next (rxReject reply .epOutOfRange f s)
  else
    andThen (needReg f .mode s) fun m =>
    if m = modeTransmit then .next (rxReject reply .notReceive f s)
    else if m ≠ modeReceive then .next (rxReject reply .invalidMode f s)
    else if !s.isIdle f then .next (rxReject reply .epBusy f s)
    else rxMessage f size data reply s

/-- EV_RX_MSG (R240, R241): an arrival whose data length differs from its size faults (U7). -/
def execEvRxMsg (addr size : Nat) (data : Bytes) (reply : Reply) (s : State) :
    Host.Outcome State Fault Refusal :=
  if data.length = size then rxArrive addr size data reply s else .fault .netInLength

/-- EV_RX_UNSUPPORTED (R242): the kind check comes first, whatever the endpoint (R241). -/
def execEvRxUnsupported (addr : Nat) (reply : Reply) (s : State) :
    Host.Outcome State Fault Refusal :=
  .next (rxReject reply .unsupported (s.cfg.netEpOf addr) s)

/-- EV_RX_WRITE_DONE (R251). -/
def execEvRxWriteDone (f : Nat) (s : State) : Host.Outcome State Fault Refusal :=
  rxWriteDone f s

end Sys2Proof.Machine
end

