-- ==== Sys2Proof/Machine/Transmit.lean ====
section
/-!
DEFINITION. The transmit sequencer (42_transmit.md): TX_ACCEPT, TX_ISSUE_READ, TX_READ_DONE,
TX_SEND, TX_ACK and TX_NACK, TX_FINAL, and the meanings of EV_TX_READ_DONE, EV_TX_ACK and
EV_TX_NACK. The receive sequencer comes first because in atomic mode a message this unit sends to
itself runs its own receive chain within the step (R210, R351; log 9).
-/

namespace Sys2Proof.Machine

/-- TX_FINAL(e, s) (R206, R207): the idle word to COMMAND without a trigger, STATUS cleared, Idle,
and on a rejection one report. -/
def txFinal (e : Nat) (st : NetStatus) (s : State) : State :=
  let t := ((s.setCommand Config.idleCommand).setStatus statusIdle).setActivity e .idle
  match st with
  | .ack => t
  | .reject k => t.raise .tx .remoteRejected e k.number

/-- TX_ACK(e) and TX_NACK(e, c) (R206, R207): free the tag, then schedule TX_FINAL. -/
def txResponded (e : Nat) (st : NetStatus) (s : State) : Ans State :=
  andThen (takeTag .net .localTag e s) fun t =>
  match t.activity e with
  | .transmitting _ => sched (.txFinal e st) (fun u => .next (txFinal e st u)) t
  | _ => .next (t.raise .tx .spuriousCompletion e 0)

/-- The network's part in atomic mode (R351, R254): a message for this unit's own core runs its
receive chain here and the response that it gives in this step comes back (R210, R317; log 26); for
another core the environment's answer is the next of `netAnswers`, and with none the operation stays
in flight (R209; log 9). In timed mode the answer is a later event. -/
def netAnswer (e : Nat) (r : NetReq) (s : State) : Ans State :=
  if s.cfg.atomicMode then
    if s.cfg.netCoreOf r.addr = s.cfg.coreId then
      andThen (rxArrive r.addr r.size r.data (.own e) s) fun t =>
      match (t.netInOut.drop s.netInOut.length).head? with
      | some x => txResponded e x.status t
      | none => .next t
    else
      match s.netAnswers with
      | st :: rest => txResponded e st { s with netAnswers := rest }
      | [] => .next s
  else .next s

/-- The NetReq of an operation (R204). -/
def sendReq (c : Config) (e : Nat) (x : TxCtx) (msg : Bytes) : NetReq where
  addr := c.encodeNetworkAddress x.targetCore x.targetEp
  size := Config.headerSize + x.length
  data := msg
  disc := .localTag
  ep := e

/-- TX_SEND(e, msg) (R204). -/
def txSend (e : Nat) (msg : Bytes) (s : State) : Ans State :=
  match s.activity e with
  | .transmitting x =>
      let r := sendReq s.cfg e x msg
      netAnswer e r (s.issueNet r)
  | _ => .fault (.noContext e)

/-- TX_READ_DONE(e, d) (R203). -/
def txReadDone (e : Nat) (d : Bytes) (s : State) : Ans State :=
  andThen (takeTag .mem .localTag e s) fun t =>
  match t.activity e with
  | .transmitting x =>
      if d.length = x.length then
        let msg := messageOf t.cfg e x.length d
        sched (.txSend e msg) (txSend e msg) t
      else .fault (.responseLength e)
  | _ => .next (t.raise .tx .spuriousCompletion e 0)

/-- TX_ISSUE_READ(e) (R202). In atomic mode the memory answers within the step, as the environment
says (R13, R351; log 26). -/
def txIssueRead (e : Nat) (s : State) : Ans State :=
  match s.activity e with
  | .transmitting x =>
      let t := s.issueMem ⟨x.msgAddr, x.length, .read, [], .localTag, e⟩
      if t.cfg.atomicMode then
        memAnswered .localTag e (readBytes t.cfg t.mem x.msgAddr x.length) (txReadDone e) t
      else .next t
  | _ => .fault (.noContext e)

/-- TX_ACCEPT(e) (R200, R201). -/
def txAccept (e : Nat) (s : State) : Ans State :=
  andThen (capture e s) fun x =>
  sched (.txIssueRead e) (txIssueRead e)
    ((s.setStatus statusBusy).setActivity e (.transmitting x))

/-- EV_TX_READ_DONE (R203). -/
def execEvTxReadDone (e : Nat) (data : Bytes) (s : State) : Host.Outcome State Fault Refusal :=
  txReadDone e data s

/-- EV_TX_ACK (R206). -/
def execEvTxAck (e : Nat) (s : State) : Host.Outcome State Fault Refusal :=
  txResponded e .ack s

/-- EV_TX_NACK (R207). -/
def execEvTxNack (e : Nat) (k : ErrCode) (s : State) : Host.Outcome State Fault Refusal :=
  txResponded e (.reject k) s

end Sys2Proof.Machine
end

