-- ==== Sys2Proof/Machine/Command.lean ====
section
/-!
DEFINITION. The command executor's operations (40_command_decoder.md): the range check that comes
first for every opcode (R151), and the meanings of IDLE, START_OPERATION, INCREMENT_READ_POINTER
and the invalid opcodes.
-/

namespace Sys2Proof.Machine

/-- The range check of R151, before any opcode's own rule and before any mutation. -/
def inRange (e : Nat) (s : State) (k : Ans State) : Ans State :=
  if s.cfg.endpointCount ≤ e then .next (s.raise .exec .epOutOfRange e 0) else k

/-- START(e, off): mode, busy and size checks, then TX_ACCEPT (R153 to R156). -/
def startOn (e : Nat) (s : State) : Ans State :=
  andThen (needReg e .mode s) fun m =>
  if m = modeReceive then .next (s.raise .exec .startOnReceive e 0)
  else if m ≠ modeTransmit then .next (s.raise .exec .invalidMode e 0)
  else if !s.isIdle e then .next (s.raise .exec .epBusy e 0)
  else
    andThen (needReg e .messageSize s) fun len =>
    if sizeViolates s.cfg len then .next (s.raise .exec .sizeLimit e 0)
    else txAccept e s

/-- IDLE (R152): no-op after the range check; the offset is ignored (R106). -/
def execIdle (e _off : Nat) (s : State) : Host.Outcome State Fault Refusal :=
  inRange e s (.next s)

/-- START_OPERATION (R153). -/
def execStartOperation (e _off : Nat) (s : State) : Host.Outcome State Fault Refusal :=
  inRange e s (startOn e s)

/-- INCREMENT_READ_POINTER (R158): the consumer advance, with no mode or state check. -/
def execIncrementReadPointer (e _off : Nat) (s : State) : Host.Outcome State Fault Refusal :=
  inRange e s (fcAdvanceRead e s)

/-- An invalid opcode (R160): one report whose detail is the opcode value. -/
def execInvalidOpcode (op e _off : Nat) (s : State) : Host.Outcome State Fault Refusal :=
  inRange e s (.next (s.raise .exec .invalidOpcode e op))

end Sys2Proof.Machine
end

