-- ==== Sys2Proof/Machine/Dispatch.lean ====
section
/-!
DEFINITION. One arm per operation of spec/opcode_table.json.
-/

namespace Sys2Proof.Machine

def exec (i : Instr) (s : State) : Host.Outcome State Fault Refusal :=
  match i with
  | .idle ep off => Sys2Proof.Machine.execIdle ep off s
  | .startOperation ep off => Sys2Proof.Machine.execStartOperation ep off s
  | .incrementReadPointer ep off => Sys2Proof.Machine.execIncrementReadPointer ep off s
  | .invalidOpcode op ep off => Sys2Proof.Machine.execInvalidOpcode op ep off s
  | .evTxReadDone e data => Sys2Proof.Machine.execEvTxReadDone e data s
  | .evTxAck e => Sys2Proof.Machine.execEvTxAck e s
  | .evTxNack e c => Sys2Proof.Machine.execEvTxNack e c s
  | .evRxMsg addr size data reply => Sys2Proof.Machine.execEvRxMsg addr size data reply s
  | .evRxUnsupported addr reply => Sys2Proof.Machine.execEvRxUnsupported addr reply s
  | .evRxWriteDone f => Sys2Proof.Machine.execEvRxWriteDone f s

end Sys2Proof.Machine
end

