-- ==== Sys2Proof/Machine/Front.lean ====
section
/-!
DEFINITION. What delivers work to the operations: the register-access front end (R45, R150), the
pending continuations (R352), the fabrics' responses and arrivals (R41, R92, R240), the local memory
and the CPU's writes to it (R78), and the choice of what happens next (R309; log 8).
-/

namespace Sys2Proof.Machine

/-! ### The executor and the ports -/

/-- The executor: decode COMMAND as it stands and run the operation (R151, D23). -/
def execute (s : State) : Ans State := exec (decodeCommand s.cfg s.command) s

/-- The executor run and, second, the response of the COMMAND write that caused it (R150, D49). That
in atomic mode the response comes at the end of the step also where the memory or the network did
not answer, so that the operation is still in flight, is the model's choice (log 30). -/
def executeAndRespond (s : State) : Ans State :=
  andThen (execute s) fun t => .next (t.respondAccess (.writeDone .command))

/-- How the machine stops on a stimulus that is no operation (R92, R240, R307). -/
def stopOf : Reject → Ans State
  | .wordTooWide => .refused .partialWidthAccess
  | .fabricFailure d e => .fault (.fabricFailure d e)
  | .responseLength e => .fault (.responseLength e)
  | .neverIssued e => .fault (.unmatchedResponse .net .forwardedTag e)
  | .netInLength => .fault .netInLength

/-- A transaction at a port runs the event it decodes to (R41, R116). -/
def atPort (x : Stimulus) (s : State) : Ans State :=
  match decode s.cfg x with
  | .ok i => exec i s
  | .error r => stopOf r

/-! ### Register access -/

/-- Whether an access targeted the command register: the trigger of the executor (R45, R150). -/
def targetsCommand (n : RegName) : Bool := decide (n = .command)

/-- The response of an access that does not run the executor (R150, R356; log 12). -/
def accessDone (r : AccessResp) (s : State) : Ans State :=
  sched (.respond r) (fun t => .next (t.respondAccess r)) s

/-- Store a register, with no trigger (R31). -/
def storeReg (n : RegName) (v : Nat) (s : State) : State :=
  match n with
  | .command => s.setCommand v
  | .status => s.setStatus v
  | .endpoint e f => s.setReg e f v

/-- Whether the register file has a register of this name (R30). -/
def State.hasReg (s : State) (n : RegName) : Bool :=
  match n with
  | .command => true
  | .status => true
  | .endpoint e _ => decide (e < s.cfg.endpointCount)

/-- `RegWrite(name, value)`: store, and for COMMAND trigger the executor once (R150). -/
def regWrite (n : RegName) (v : Nat) (s : State) : Ans State :=
  if s.hasReg n then
    if targetsCommand n then sched .execute executeAndRespond (storeReg n v s)
    else accessDone (.writeDone n) (storeReg n v s)
  else .refused (.noSuchRegister n)

/-- `RegRead(name)`: the stored value and no side effect (R31); a register never written since
reset returns a free value (R55, U1). The value is the one at the access's step (R91; log 12). -/
def regRead (n : RegName) (s : State) : Ans State :=
  if s.hasReg n then
    match n with
    | .command => accessDone (.readValue n s.command) s
    | .status => accessDone (.readValue n s.status) s
    | .endpoint e f =>
        if (s.reg e f).written then accessDone (.readValue n (s.reg e f).value) s
        else
          accessDone (.readValue n (fitWord s.cfg (Config.freeWord s.freeCount)))
            { s with freeCount := s.freeCount + 1 }
  else .refused (.noSuchRegister n)

/-- An access by external address: whole registers only (R74), through REG_ADDR_MAP (R51). -/
def atExternal (addr : Nat) (width : Nat) (access : RegName → Ans State) (s : State) :
    Ans State :=
  if width ≠ s.cfg.regWidth then .refused .partialWidthAccess
  else
    match s.cfg.regAddrMap.lookup addr with
    | some n => access n
    | none => .refused (.unmappedAddress addr)

/-! ### Local memory's fabric -/

/-- The local memory answers the outstanding request of a tag from its bytes (R46, R78); with no
such request there is nothing to answer and the step is idle (log 20). -/
def memServe (d : Disc) (e : Nat) (s : State) : Ans State :=
  match s.outstanding.find? (fun t => t.hasTag .mem d e) with
  | none => .next s
  | some t =>
      match d with
      | .localTag =>
          atPort (.memResp ⟨.localTag, e, servedBytes s.cfg s.mem s.freeCount t, false⟩)
            { s with freeCount := s.freeCount + t.size }
      | .forwardedTag => atPort (.memResp ⟨.forwardedTag, e, [], false⟩) s

/-- The CPU writes local memory (R78, D45). -/
def cpuWrite (a : Nat) (bs : Bytes) (s : State) : State :=
  (s.writeMem a bs).markRaced (a, bs.length)

/-! ### Continuations and events -/

/-- Run a continuation (R353). -/
def continueWith (k : Continuation) (s : State) : Ans State :=
  match k with
  | .execute => executeAndRespond s
  | .respond r => .next (s.respondAccess r)
  | .txIssueRead e => txIssueRead e s
  | .txSend e msg => txSend e msg s
  | .txFinal e st => .next (txFinal e st s)
  | .rxIssueWrite f => rxIssueWrite f s
  | .rxFinish f => rxFinish f s

/-- The pending continuation at an index leaves `pending` and runs (R352); where there is none the
step is idle (R319; log 20). -/
def runPending (k : Nat) (s : State) : Ans State :=
  match s.pending[k]? with
  | some c => continueWith c { s with pending := s.pending.eraseIdx k }
  | none => .next s

/-- One event of the environment. -/
def handleEvent (ev : Event) (s : State) : Ans State :=
  match ev with
  | .regWrite n v => regWrite n v s
  | .regRead n => regRead n s
  | .extWrite a w v => atExternal a w (fun n => regWrite n v s) s
  | .extRead a w => atExternal a w (fun n => regRead n s) s
  | .memResp r => atPort (.memResp r) s
  | .memServe d e => memServe d e s
  | .netResp r => atPort (.netResp r) s
  | .netIn t => atPort (.netIn t) s
  | .cpuWrite a bs => .next (cpuWrite a bs s)
  | .run k => runPending k s

/-- What happens next: the timeline's next event; with none left, the oldest pending continuation,
and with none pending the block idles (R319, R352; log 8). -/
def nextEvent (s : State) : Ans State :=
  match s.timeline with
  | ev :: rest => handleEvent ev { s with timeline := rest }
  | [] => runPending 0 s

/-- Place a command word where the next step runs it (log 17): in atomic mode the software's write
of it comes next, in timed mode COMMAND holds it and its executor run is the continuation that the
environment takes next (R150). -/
def placeCommand (v : Nat) (s : State) : State :=
  if s.cfg.atomicMode then { s with timeline := .regWrite .command v :: s.timeline }
  else
    { s with
      command := fitWord s.cfg v
      pending := .execute :: s.pending
      timeline := .run 0 :: s.timeline }

end Sys2Proof.Machine
end

