-- ==== Sys2Proof/Machine/Step.lean ====
section
/-!
DEFINITION. One step of one TU-CORE instance, and the placing of a command word for the next step.
-/

namespace Sys2Proof.Machine

/-- One step (R14, R83). A configuration outside R10 and D36 has no instance (R305, U9). -/
def step (s : State) : Host.Outcome State Fault Refusal :=
  if s.cfg.valid then nextEvent s else .refused .badConfiguration

/-- The command word of `nbits` bits, placed where `step` runs its next operation (log 17). -/
def State.withFetchWord (s : State) (nbits w : Nat) : State := placeCommand (w % 2 ^ nbits) s

end Sys2Proof.Machine
end

