-- ==== Sys2Proof/Machine/System.lean ====
section
/-!
DEFINITION. Several units joined by the network (R317): each NetReq is delivered once to the unit
whose CORE_ID its address names (R110, D42), and the receiver's response comes back as a NetResp at
the originator's tag (D44). The units' own behaviour is `step`; this file only carries transactions
between them (log 19).
-/

namespace Sys2Proof.Machine

/-- A network write on its way: the unit it comes from and the number of its delivery. -/
structure Flight where
  origin : Nat
  number : Nat
  req : NetReq
  deriving DecidableEq, Repr

/-- A delivered network write that is not answered yet: the unit that holds it, the number of its
delivery, and the unit and endpoint whose transaction it is. -/
structure Waiting where
  receiver : Nat
  number : Nat
  origin : Nat
  ep : Nat
  deriving DecidableEq, Repr

/-- An answer on its way back to the originating unit and endpoint. -/
structure Answer where
  origin : Nat
  ep : Nat
  status : NetStatus
  deriving DecidableEq, Repr

/-- The units and what the network carries between them. -/
structure System where
  units : List State
  flights : List Flight
  waiting : List Waiting
  answers : List Answer
  nextNumber : Nat
  deriving DecidableEq, Repr

/-- Which agent takes the next turn (R309): a unit, or the network with one delivery or answer. -/
inductive Turn where
  | unit (k : Nat)
  | deliver (j : Nat)
  | answer (j : Nat)
  deriving DecidableEq, Repr

/-- Units with nothing on the network between them. -/
def systemOf (units : List State) : System := ⟨units, [], [], [], 0⟩

/-- Whether an event comes from the network: in a system only the network's turns bring those. -/
def Event.fromNetwork : Event → Bool
  | .netResp _ => true
  | .netIn _ => true
  | _ => false

/-- What a system is made of: valid units (R10), with distinct core ids (R317, R346). That they
share NET_EP_BITS and REG_WIDTH is the model's choice (log 27), and so is that the network of this
file is their only network (log 19). -/
def System.valid (y : System) : Bool :=
  y.units.all (fun u => u.cfg.valid) && decide ((y.units.map fun u => u.cfg.coreId).Nodup)
    && y.units.all (fun u => y.units.all fun v =>
      decide (u.cfg.netEpBits = v.cfg.netEpBits ∧ u.cfg.regWidth = v.cfg.regWidth))
    && y.units.all (fun u => u.netAnswers.isEmpty && u.timeline.all fun ev => !ev.fromNetwork)

/-- The network takes over a request. -/
def takeRequest (k : Nat) (y : System) (r : NetReq) : System :=
  { y with flights := y.flights ++ [⟨k, y.nextNumber, r⟩], nextNumber := y.nextNumber + 1 }

/-- The network turns the response of unit `k`, whose state is now `new`, into an answer for the
originator (D44). The response to an atomic unit's own message was consumed within the step that
gave it, unless its transaction is still outstanding: then it comes back as any other (R351; log
26). -/
def takeResponse (k : Nat) (new : State) (y : System) (r : NetInResp) : System :=
  match r.reply with
  | .own e =>
      if new.outstanding.any (fun t => t.hasTag .net .localTag e) then
        { y with answers := y.answers ++ [⟨k, e, r.status⟩] }
      else y
  | .network n =>
      match y.waiting.find? (fun x => decide (x.receiver = k ∧ x.number = n)) with
      | some x =>
          { y with
            waiting := y.waiting.filter (fun z => !decide (z.receiver = k ∧ z.number = n))
            answers := y.answers ++ [⟨x.origin, x.ep, r.status⟩] }
      | none => y

/-- Whether an atomic unit runs the delivery of this request within its own step: the request is for
its own core (R210, R351). -/
def deliveredWithin (s : State) (r : NetReq) : Bool :=
  s.cfg.atomicMode && decide (s.cfg.netCoreOf r.addr = s.cfg.coreId)

/-- The requests a step issued that the network is to carry: those still in flight after it, and not
delivered within it. -/
def newRequests (old new : State) : List NetReq :=
  (new.netOut.drop old.netOut.length).filter fun r =>
    new.outstanding.any (fun t => t.hasTag .net r.disc r.ep) && !deliveredWithin new r

/-- Put back a unit after its step and take over what it put on its network ports. -/
def collect (k : Nat) (old new : State) (y : System) : System :=
  (new.netInOut.drop old.netInOut.length).foldl (takeResponse k new)
    ((newRequests old new).foldl (takeRequest k) { y with units := y.units.set k new })

/-- One step of one unit, after the environment has put an event at the head of its timeline. A
fault or a refusal of one unit stops the whole system (log 29). -/
def stepUnit (k : Nat) (ready : State → State) (y : System) : Ans System :=
  match y.units[k]? with
  | some s => andThen (step (ready s)) fun t => .next (collect k s t y)
  | none => .next y

/-- Put an event at the head of a unit's timeline. -/
def putEvent (ev : Event) (s : State) : State := { s with timeline := ev :: s.timeline }

/-- The unit a network address names (R110, R317). -/
def unitOf (y : System) (addr : Nat) : Option Nat :=
  y.units.findIdx? fun u => decide (u.cfg.coreId = u.cfg.netCoreOf addr)

/-- Deliver a request to the addressed unit (R317); without such a unit it is never answered. -/
def deliver (j : Nat) (y : System) : Ans System :=
  match y.flights[j]? with
  | some x =>
      match unitOf y x.req.addr with
      | some k =>
          stepUnit k
            (putEvent (.netIn ⟨x.req.addr, x.req.size, .write, x.req.data, .network x.number⟩))
            { y with
              flights := y.flights.eraseIdx j
              waiting := y.waiting ++ [⟨k, x.number, x.origin, x.req.ep⟩] }
      | none => .next y
  | none => .next y

/-- Bring an answer back to its originator (D44). -/
def answer (j : Nat) (y : System) : Ans System :=
  match y.answers[j]? with
  | some x =>
      stepUnit x.origin (putEvent (.netResp ⟨.localTag, x.ep, x.status⟩))
        { y with answers := y.answers.eraseIdx j }
  | none => .next y

/-- Whether unit `k` runs in atomic mode (R350). -/
def isAtomic (k : Nat) (y : System) : Bool := (y.units[k]?.map fun u => u.cfg.atomicMode).getD false

/-- Run the continuation a unit scheduled last. -/
def runLast (s : State) : State := putEvent (.run (s.pending.length - 1)) s

/-- The rest of the receive chain of a timed unit that has just accepted a message at `addr`, step
after step: RX_ISSUE_WRITE, the memory's answer, RX_FINISH (R353; log 13). -/
def receiveChain (k addr : Nat) (y : System) : Ans System :=
  andThen (stepUnit k runLast y) fun z =>
  andThen (stepUnit k (fun s => putEvent (.memServe .forwardedTag (s.cfg.netEpOf addr)) s) z)
    (stepUnit k runLast)

/-- The network's part of an atomic unit's step: the request just issued, at index `j`, is
delivered, the peer's receive chain runs, and the acknowledgment returns (R351, R254). What else the
network carries does not matter to it, and a request for an absent core is never answered (R209,
U8). An acknowledgment that an atomic peer does not give at once comes in a later turn (log 26). -/
def settle (j : Nat) (y : System) : Ans System :=
  match y.flights[j]? with
  | some x =>
      match unitOf y x.req.addr with
      | some k =>
          andThen (deliver j y) fun z =>
          andThen
            (if z.answers.length = y.answers.length ∧ isAtomic k z = false then
              receiveChain k x.req.addr z
            else .next z)
            (answer y.answers.length)
      | none => .next y
  | none => .next y

/-- One turn. The request an atomic unit issues in its turn is answered within it (R351, R254),
whatever mode the other units run in. -/
def systemStep (t : Turn) (y : System) : Ans System :=
  match t with
  | .unit k =>
      andThen (stepUnit k id y) fun z =>
      if isAtomic k y then settle y.flights.length z else .next z
  | .deliver j => deliver j y
  | .answer j => answer j y

end Sys2Proof.Machine
end

