-- ==== Sys2Proof/Safety.lean ====
section
/-!
DEFINITION. The terms claims are stated in: readable registers (R55), the invariants of the state
(R31, R36, R38, R40, R44), ring buffers that meet R186, and what a safe outcome is (R307).
-/

namespace Sys2Proof.Machine

/-- A step that needs this register does not fault on it (R55; log 3). -/
def State.readable (s : State) (e : Nat) (f : Field) : Bool :=
  !s.cfg.unwrittenFaults || (s.reg e f).written

/-- An outcome that is no fault (R307). -/
def NoFault (x : Ans State) : Prop := ∀ r, x ≠ .fault r

/-- `k` runs of one operation, stopping at the first fault or refusal. -/
def repeated (f : State → Ans State) : Nat → State → Ans State
  | 0, s => .next s
  | k + 1, s => andThen (f s) (repeated f k)

/-- `k` steps, stopping at the first fault or refusal. -/
def runSteps (k : Nat) (s : State) : Ans State := repeated step k s

/-- The first of these registers of endpoint `e` that has not been written since reset (R55). -/
def State.firstUnwritten (s : State) (e : Nat) (fs : List Field) : Option Field :=
  fs.find? fun f => !(s.reg e f).written

/-- The first check of RX_ARRIVE that refuses a well-formed message of legal size (R241). -/
def State.arrivalRefusal (s : State) (f : Nat) : Option ErrCode :=
  if s.cfg.endpointCount ≤ f then some .epOutOfRange
  else if (s.reg f .mode).value = 0 then some .notReceive
  else if (s.reg f .mode).value ≠ 1 then some .invalidMode
  else if s.activity f ≠ .idle then some .epBusy
  else if (s.reg f .bufferSize).value ≤ (s.reg f .bufferMessageCount).value then some .bufferFull
  else none

/-- The first register of endpoint `f` never written since reset that the arrival of a well-formed
message of legal size needs: MODE, then where the occupancy check is reached its two registers
(R241), then in atomic mode, where the message is accepted, those of RX_ISSUE_WRITE and RX_FINISH
(R250, R252, R351). -/
def State.arrivalUnwritten (s : State) (f : Nat) : Option Field :=
  if (s.reg f .mode).written = false then some .mode
  else if (s.reg f .mode).value ≠ 1 ∨ s.activity f ≠ .idle then none
  else
    match s.firstUnwritten f [.bufferMessageCount, .bufferSize] with
    | some r => some r
    | none =>
        if s.cfg.atomicMode = true ∧
            (s.reg f .bufferMessageCount).value < (s.reg f .bufferSize).value then
          s.firstUnwritten f [.bufferWritePtr, .bufferAddr]
        else none

/-- The state has the endpoints 0 .. ENDPOINT_COUNT-1 (R30). -/
abbrev State.shaped (s : State) : Prop := s.endpoints.length = s.cfg.endpointCount

/-- The ten registers of an endpoint. -/
def Endpoint.regs (p : Endpoint) : List Reg :=
  [p.mode, p.messageAddr, p.messageSize, p.targetCore, p.targetEndpoint, p.bufferAddr,
    p.bufferSize, p.bufferReadPtr, p.bufferWritePtr, p.bufferMessageCount]

/-- Every register holds a value of REG_WIDTH bits (R31). -/
abbrev State.regsFit (s : State) : Prop :=
  s.command < 2 ^ s.cfg.regWidth ∧ s.status < 2 ^ s.cfg.regWidth ∧
    ∀ p ∈ s.endpoints, ∀ r ∈ p.regs, r.value < 2 ^ s.cfg.regWidth

/-- Local memory is in canonical form and lists only addresses of the address space (R70). -/
abbrev State.memOk (s : State) : Prop :=
  s.mem.wf ∧ ∀ x ∈ s.mem, x.1 < 2 ^ s.cfg.regWidth

/-- In atomic mode nothing is pending between steps (R44). -/
abbrev State.atomicQuiet (s : State) : Prop := s.cfg.atomicMode = true → s.pending = []

/-- A continuation of endpoint `e`'s transmit operation. -/
def Continuation.isTx (e : Nat) : Continuation → Bool
  | .txIssueRead x => decide (x = e)
  | .txSend x _ => decide (x = e)
  | .txFinal x _ => decide (x = e)
  | _ => false

/-- A continuation of endpoint `e`'s receive operation. -/
def Continuation.isRx (e : Nat) : Continuation → Bool
  | .rxIssueWrite x => decide (x = e)
  | .rxFinish x => decide (x = e)
  | _ => false

/-- How many continuations and transactions carry endpoint `e`'s transmit operation on. -/
def State.txTokens (s : State) (e : Nat) : Nat :=
  s.pending.countP (Continuation.isTx e)
    + s.outstanding.countP (fun t => decide (t.disc = .localTag) && decide (t.ep = e))

/-- How many continuations and transactions carry endpoint `e`'s receive operation on. -/
def State.rxTokens (s : State) (e : Nat) : Nat :=
  s.pending.countP (Continuation.isRx e)
    + s.outstanding.countP (fun t => decide (t.disc = .forwardedTag) && decide (t.ep = e))

/-- How many transmit and receive tokens an operation state goes with. -/
def Activity.tokens : Activity → Nat × Nat
  | .idle => (0, 0)
  | .transmitting _ => (1, 0)
  | .receiving _ => (0, 1)

/-- Each endpoint is carried on by exactly the one continuation or transaction its operation state
goes with, no NET transaction is tagged FORWARDED, and a local read in flight has the captured
length (R38, R40, R41, R202, R306). -/
def State.tracked (s : State) : Prop :=
  (∀ e, (s.txTokens e, s.rxTokens e) = (s.activity e).tokens) ∧
  (∀ t ∈ s.outstanding, t.disc = .forwardedTag → t.port = .mem) ∧
  ∀ t ∈ s.outstanding, t.port = .mem → t.disc = .localTag → ∀ x,
    s.activity t.ep = .transmitting x → x.length = t.size

/-- The invariant of a run: all of the above together. -/
def State.Inv (s : State) : Prop :=
  s.shaped ∧ s.regsFit ∧ s.memOk ∧ s.atomicQuiet ∧ s.tracked

/-- A pointer that lies in the buffer at a slot boundary (R36, R186). -/
abbrev onSlot (slot base cap p : Nat) : Prop := ∃ k, k < cap ∧ p = base + k * slot

/-- A ring buffer that meets the conditions of R186. -/
abbrev ringOk (c : Config) (p : Endpoint) : Prop :=
  1 ≤ p.bufferSize.value ∧
  p.bufferAddr.value + p.bufferSize.value * c.slotSize ≤ 2 ^ c.regWidth ∧
  p.bufferMessageCount.value ≤ p.bufferSize.value ∧
  onSlot c.slotSize p.bufferAddr.value p.bufferSize.value p.bufferReadPtr.value ∧
  onSlot c.slotSize p.bufferAddr.value p.bufferSize.value p.bufferWritePtr.value

/-- The event is a software write of `v` to register `n`: by its name (R45), or with REG_WIDTH bits
at an external address that REG_ADDR_MAP maps to it (R51, R74). -/
def Event.writesReg (c : Config) (n : RegName) (v : Nat) (ev : Event) : Prop :=
  ev = .regWrite n v ∨ ∃ a, c.regAddrMap.lookup a = some n ∧ ev = .extWrite a c.regWidth v

/-- The event is a software read of register `n`, by its name or at an external address of it. -/
def Event.readsReg (c : Config) (n : RegName) (ev : Event) : Prop :=
  ev = .regRead n ∨ ∃ a, c.regAddrMap.lookup a = some n ∧ ev = .extRead a c.regWidth

/-- Whether an event is a software write to a register of endpoint `e` (R36, R343). -/
def Event.writesEndpoint (c : Config) (e : Nat) : Event → Bool
  | .regWrite (.endpoint x _) _ => decide (x = e)
  | .extWrite a _ _ =>
      match c.regAddrMap.lookup a with
      | some (.endpoint x _) => decide (x = e)
      | _ => false
  | _ => false

/-- Whether an event is a response or an arrival that the fabrics and peers choose (R46 to R48): the
only events the faults of R307 (b) come from. -/
def Event.fromFabric : Event → Bool
  | .memResp _ => true
  | .netResp _ => true
  | .netIn _ => true
  | _ => false

/-- The memory answers the next request of atomic mode with data `d`, where `stored` is what its
bytes give, and leaves the answers `rest` (R351; log 26). -/
def memGives (ms : List MemAnswer) (stored d : Bytes) (rest : List MemAnswer) : Prop :=
  rest = ms.tail ∧
    (ms.headD .served = .served ∧ d = stored ∨ ms.headD .served = .response d false)

/-- A byte of a local read lies in a span the CPU has written since the read was issued (R78). -/
def Txn.racedByCpu (c : Config) (g : Txn) : Prop :=
  ∃ i j span, i < g.size ∧ span ∈ g.raced ∧ j < span.2 ∧
    byteAddr c g.addr i = byteAddr c span.1 j

/-- Whether an address is one of the `n` bytes of a transaction at `a` (R76). -/
abbrev covered (c : Config) (a : Nat) (n : Nat) (x : Nat) : Prop :=
  ∃ i, i < n ∧ x = byteAddr c a i

end Sys2Proof.Machine
end

