-- ==== Sys2Proof/Certificates/Slice0/Obligations.lean ====
section
/-!
DEFINITION. Statements about TU-CORE, from the numbered rules of spec/. Each docstring names the
rules; OBLIGATIONS.json lists them.
-/

open Sys2Proof Sys2Proof.Machine

/-! ### Encodings -/

/-- R102: encode packs in-range fields low to high, refuses any other, and decode is its
inverse. -/
def Obligations.CommandWordCodec : Prop :=
  ∀ (c : Config) (op ep off : Nat), c.valid = true →
    (op < 2 ^ c.opcodeWidth → ep < 2 ^ c.epWidth → off < 2 ^ c.offsetWidth →
      ∃ w, encodeCommand c op ep off = some w ∧
        w = op ||| (ep <<< c.opcodeWidth) ||| (off <<< (c.opcodeWidth + c.epWidth)) ∧
        w < 2 ^ c.regWidth ∧ c.opcodeOf w = op ∧ c.epOf w = ep ∧ c.offsetOf w = off) ∧
    (2 ^ c.opcodeWidth ≤ op ∨ 2 ^ c.epWidth ≤ ep ∨ 2 ^ c.offsetWidth ≤ off →
      encodeCommand c op ep off = none)

/-- Decode of encode is the operation, for every well-formed operation of every configuration (R41,
R101, R102, R114, R116). -/
def Obligations.DecodeEncodeAgree : Prop :=
  ∀ (c : Config) (i : Instr) (x : Stimulus), c.valid = true → encode c i = some x →
    decode c x = .ok i

/-- Every command word decodes to a well-formed operation, whose encoding is the word's low
OPCODE_WIDTH + EP_WIDTH + OFFSET_WIDTH bits: no such bit is dropped and the others are ignored
(R101). -/
def Obligations.EncodeDecodeWord : Prop :=
  ∀ (c : Config) (w : Nat), c.valid = true → w < 2 ^ c.regWidth →
    ∃ i, decode c (.word w) = .ok i ∧ i.wellFormed c = true ∧
      encode c i = some (.word (w % 2 ^ (c.opcodeWidth + c.epWidth + c.offsetWidth)))

/-- The examples of R109, and V-COD-6, decode to the operations they stand for. -/
def Obligations.ExampleWordsDecode : Prop :=
  decodeTableWord 64 0x0 = some (.idle 0 0) ∧
  decodeTableWord 64 0x9 = some (.startOperation 2 0) ∧
  decodeTableWord 64 0x14D = some (.startOperation 3 5) ∧
  decodeTableWord 64 0x16 = some (.incrementReadPointer 5 0) ∧
  decodeTableWord 64 0x7 = some (.invalidOpcode 3 1 0) ∧
  decodeTableWord 64 0x25 = some (.startOperation 9 0) ∧
  decodeTableWord 64 0xFFFFFFFFFFFFFFFF = some (.invalidOpcode 3 15 0x3FFFFFF)

/-- A network address names its core and endpoint, and RX reads them back (R110, R111, R365). -/
def Obligations.NetworkAddressRoundTrip : Prop :=
  ∀ (c : Config) (core ep : Nat), c.valid = true → ep < 2 ^ c.netEpBits →
    core < 2 ^ (c.regWidth - c.netEpBits) →
    c.encodeNetworkAddress core ep = core * 2 ^ c.netEpBits + ep ∧
    c.netEpOf (c.encodeNetworkAddress core ep) = ep ∧
    c.netCoreOf (c.encodeNetworkAddress core ep) = core

/-- The receiver reads from a message what the sender's header and payload carry (R205, R246). -/
def Obligations.MessageRoundTrip : Prop :=
  ∀ (c : Config) (e len : Nat) (payload : Bytes), c.coreId ≤ 255 → e < 256 → len < 65536 →
    splitMessage (messageOf c e len payload) = some (c.coreId, e, len, payload) ∧
    (messageOf c e len payload).length = 4 + payload.length

/-! ### Steps -/

/-- A step at a placed command word runs the decoded operation and then delivers the access
response (R150, R151; the placing is the model's, log 17, and so is, in atomic mode, the response
while an operation is left in flight, log 30). -/
def Obligations.StepRunsPlacedCommand : Prop :=
  ∀ (s : State) (nbits w : Nat), s.cfg.valid = true →
    step (s.withFetchWord nbits w) =
      andThen (exec (decodeCommand s.cfg (w % 2 ^ nbits % 2 ^ s.cfg.regWidth))
          { s with command := w % 2 ^ nbits % 2 ^ s.cfg.regWidth })
        fun t => .next { t with accessOut := t.accessOut ++ [.writeDone .command] }

/-- A step at a port transaction that decodes to an operation runs it (R41, R116; that the
transaction comes from the timeline is the model's, log 8). When the local memory answers by itself,
the step runs the completion of the request: a read's with the bytes memory holds, or with free
bytes where the CPU has written into the read meanwhile (R46, R78, U4); and a write by the CPU puts
its bytes at its addresses and leaves every other byte (R76, R78). These two events are the model's
(log 7), and so is the idle step where no such request is outstanding (log 20). -/
def Obligations.StepRunsPortEvent : Prop :=
  ∀ (s : State) (rest : List Event), s.cfg.valid = true →
    (∀ r i, s.timeline = .memResp r :: rest → decode s.cfg (.memResp r) = .ok i →
      step s = exec i { s with timeline := rest }) ∧
    (∀ r i, s.timeline = .netResp r :: rest → decode s.cfg (.netResp r) = .ok i →
      step s = exec i { s with timeline := rest }) ∧
    (∀ t i, s.timeline = .netIn t :: rest → decode s.cfg (.netIn t) = .ok i →
      step s = exec i { s with timeline := rest }) ∧
    (∀ e g, s.timeline = .memServe .localTag e :: rest →
      s.outstanding.find? (fun t => t.hasTag .mem .localTag e) = some g →
      ∃ d, (¬ g.racedByCpu s.cfg → d = readBytes s.cfg s.mem g.addr g.size) ∧
        (g.racedByCpu s.cfg →
          d = (List.range g.size).map fun i => Config.freeByte (s.freeCount + i)) ∧
        step s = exec (.evTxReadDone e d)
          { s with timeline := rest, freeCount := s.freeCount + g.size }) ∧
    (∀ f g, s.timeline = .memServe .forwardedTag f :: rest →
      s.outstanding.find? (fun t => t.hasTag .mem .forwardedTag f) = some g →
      step s = exec (.evRxWriteDone f) { s with timeline := rest }) ∧
    (∀ d e, s.timeline = .memServe d e :: rest →
      (∀ g ∈ s.outstanding, g.hasTag .mem d e = false) →
      step s = .next { s with timeline := rest }) ∧
    ∀ a bs, s.timeline = .cpuWrite a bs :: rest → s.mem.wf → bs.length ≤ 2 ^ s.cfg.regWidth →
      ∃ m, step s = .next { s with
          timeline := rest
          mem := m
          outstanding := s.outstanding.map fun t =>
            if t.port = .mem ∧ t.disc = .localTag then
              { t with raced := t.raced ++ [(a, bs.length)] }
            else t } ∧
        m.wf ∧
        (∀ i, ∀ hi : i < bs.length, readByte m ((a + i) % 2 ^ s.cfg.regWidth) = bs[i]) ∧
        ∀ x, ¬ covered s.cfg a bs.length x → readByte m x = readByte s.mem x

/-- A pending executor run decodes COMMAND as it stands when it runs, and then the access response
is delivered (R150, R151, R361). -/
def Obligations.StepRunsExecutor : Prop :=
  ∀ (s : State) (k : Nat) (rest : List Event), s.cfg.valid = true →
    s.timeline = .run k :: rest → s.pending[k]? = some .execute →
    step s =
      andThen (exec (decodeCommand s.cfg s.command)
          { s with timeline := rest, pending := s.pending.eraseIdx k })
        fun t => .next { t with accessOut := t.accessOut ++ [.writeDone .command] }

/-- R150: a COMMAND write, by name or through REG_ADDR_MAP (R51), stores the word and causes one
executor run, whatever the word: in timed mode at a later step, in atomic mode within the step. A
write of another width than REG_WIDTH is refused, at any address (R74). That in atomic mode the
response comes also where the operation is left in flight is the model's (log 30). -/
def Obligations.CommandWriteTriggers : Prop :=
  ∀ (s : State) (v : Nat) (ev : Event) (rest : List Event), s.cfg.valid = true →
    s.timeline = ev :: rest →
    (ev.writesReg s.cfg .command v →
      (s.cfg.atomicMode = false →
        step s = .next { s with
          command := v % 2 ^ s.cfg.regWidth
          pending := s.pending ++ [.execute]
          timeline := rest }) ∧
      (s.cfg.atomicMode = true →
        step s =
          andThen (exec (decodeCommand s.cfg (v % 2 ^ s.cfg.regWidth))
              { s with command := v % 2 ^ s.cfg.regWidth, timeline := rest })
            fun t => .next { t with accessOut := t.accessOut ++ [.writeDone .command] })) ∧
    ∀ a w, ev = .extWrite a w v → w ≠ s.cfg.regWidth → step s = .refused .partialWidthAccess

/-- A write of an endpoint register, by name or through REG_ADDR_MAP at full width (R51), stores the
value reduced `mod 2^REG_WIDTH` and gives its own response; no other register, no operation state
and nothing else of the state changes, so it cancels no operation and triggers nothing (R31, R50,
R150, R343). In timed mode the response is a pending continuation (log 12), whose own step delivers
it and changes nothing else (R45). -/
def Obligations.EndpointRegisterWrite : Prop :=
  ∀ (s : State) (e : Nat) (f : Field) (ev : Event) (rest : List Event),
    s.cfg.valid = true → s.timeline = ev :: rest →
    (∀ v, s.shaped → e < s.cfg.endpointCount → ev.writesReg s.cfg (.endpoint e f) v →
      ∃ ps : List Endpoint, ps.length = s.endpoints.length ∧
        (∀ x g, (ps[x]?.getD Endpoint.reset).get g =
          if x = e ∧ g = f then ⟨v % 2 ^ s.cfg.regWidth, true⟩ else s.reg x g) ∧
        (∀ x, (ps[x]?.getD Endpoint.reset).activity = s.activity x) ∧
        step s = .next
          (if s.cfg.atomicMode then
            { s with
              endpoints := ps
              accessOut := s.accessOut ++ [.writeDone (.endpoint e f)]
              timeline := rest }
          else
            { s with
              endpoints := ps
              pending := s.pending ++ [.respond (.writeDone (.endpoint e f))]
              timeline := rest })) ∧
    ∀ k, ev = .run k → s.pending[k]? = some (.respond (.writeDone (.endpoint e f))) →
      step s = .next { s with
        accessOut := s.accessOut ++ [.writeDone (.endpoint e f)]
        pending := s.pending.eraseIdx k
        timeline := rest }

/-- A write of STATUS, by name or through REG_ADDR_MAP at full width (R51), stores the value and
changes nothing else but the access's own response (R33, R50, R150). In timed mode the response is a
pending continuation (log 12), whose own step delivers it and changes nothing else (R45). -/
def Obligations.StatusWrite : Prop :=
  ∀ (s : State) (ev : Event) (rest : List Event), s.cfg.valid = true → s.timeline = ev :: rest →
    (∀ v, ev.writesReg s.cfg .status v →
      step s = .next
        (if s.cfg.atomicMode then
          { s with
            status := v % 2 ^ s.cfg.regWidth
            accessOut := s.accessOut ++ [.writeDone .status]
            timeline := rest }
        else
          { s with
            status := v % 2 ^ s.cfg.regWidth
            pending := s.pending ++ [.respond (.writeDone .status)]
            timeline := rest })) ∧
    ∀ k, ev = .run k → s.pending[k]? = some (.respond (.writeDone .status)) →
      step s = .next { s with
        accessOut := s.accessOut ++ [.writeDone .status]
        pending := s.pending.eraseIdx k
        timeline := rest }

/-- A register read, by name or through REG_ADDR_MAP at full width (R51), returns the stored value,
or for a never-written endpoint register some value of the register's width, and changes nothing but
the access's own response and the count of free values drawn; it triggers nothing (R31, R55, R150,
U1). In timed mode the response is a pending continuation, whose own step delivers the value and
changes nothing else (R45). A read of another width than REG_WIDTH is refused, at any address (R74).
The count and the draw are the model's (log 4); that in timed mode the value is the one at the
access's own step, and its response a step of its own, is the model's reading of R91 and R150 (log
12). -/
def Obligations.RegisterReadHasNoEffect : Prop :=
  ∀ (s : State) (ev : Event) (rest : List Event), s.cfg.valid = true →
    s.timeline = ev :: rest →
    (∀ a w, ev = .extRead a w → w ≠ s.cfg.regWidth → step s = .refused .partialWidthAccess) ∧
    (∀ n, ev.readsReg s.cfg n → (∀ e f, n = .endpoint e f → e < s.cfg.endpointCount) →
      ∃ v k,
        (n = .command → v = s.command ∧ k = s.freeCount) ∧
        (n = .status → v = s.status ∧ k = s.freeCount) ∧
        (∀ e f, n = .endpoint e f → (s.reg e f).written = true →
          v = (s.reg e f).value ∧ k = s.freeCount) ∧
        (∀ e f, n = .endpoint e f → (s.reg e f).written = false →
          v < 2 ^ s.cfg.regWidth ∧ k = s.freeCount + 1) ∧
        step s = .next
          (if s.cfg.atomicMode then
            { s with
              accessOut := s.accessOut ++ [.readValue n v]
              freeCount := k
              timeline := rest }
          else
            { s with
              pending := s.pending ++ [.respond (.readValue n v)]
              freeCount := k
              timeline := rest })) ∧
    ∀ k n v, ev = .run k → s.pending[k]? = some (.respond (.readValue n v)) →
      step s = .next { s with
        accessOut := s.accessOut ++ [.readValue n v]
        pending := s.pending.eraseIdx k
        timeline := rest }

/-- A configuration that breaks one of the constraints of R10 and D36 has no instance: construction
refuses it, and accepts every other (R9, R10, R305, R307). That a step of a state with such a
configuration refuses too is the model's choice (log 25). -/
def Obligations.BadConfigurationRefused : Prop :=
  ∀ (c : Config) (ok : Prop),
    (ok ↔ c.opcodeWidth + c.epWidth + c.offsetWidth ≤ c.regWidth ∧
      1 ≤ c.endpointCount ∧ c.endpointCount ≤ 256 ∧ c.endpointCount ≤ 2 ^ c.netEpBits ∧
      4 + 1 ≤ c.maxMessageSize ∧ c.maxMessageSize ≤ 4 + 65535 ∧
      c.maxMessageSize - 4 ≤ c.slotSize ∧ c.coreId ≤ 255 ∧
      1 ≤ c.netEpBits ∧ c.netEpBits < c.regWidth) →
    (ok → ∃ s, State.construct c = some s ∧ s.cfg = c) ∧
    (¬ ok → State.construct c = none ∧
      ∀ s : State, s.cfg = c → step s = .refused .badConfiguration)

/-- With no event and nothing pending a step has no effect: the block idles when nothing is
outstanding (R319), and stays as it is while requests are unanswered (R209, R368). That nothing
happens on an empty timeline is the model's (log 8). -/
def Obligations.IdleBlockStays : Prop :=
  ∀ s : State, s.cfg.valid = true → s.timeline = [] → s.pending = [] → step s = .next s

/-! ### Reset -/

/-- R54: what construction from a configuration leaves. (The value an unwritten register's cell
holds is the model's, log 3, and is not stated.) -/
def Obligations.ResetState : Prop :=
  ∀ c : Config, c.valid = true →
    ∃ s, State.construct c = some s ∧ s.cfg = c ∧ s.command = 0 ∧ s.status = 0 ∧
      s.endpoints.length = c.endpointCount ∧
      (∀ e, s.activity e = .idle) ∧ (∀ e f, (s.reg e f).written = false) ∧
      s.outstanding = [] ∧ s.pending = [] ∧ s.reports = []

/-- The state after construction has the endpoints of R30, registers within REG_WIDTH (R31), memory
in canonical form, nothing pending (R44) and every endpoint carried by what its state goes with
(R38, R40, R54), under every configuration; and the machine's reset is an instance of REF (R108).
What is not the spec's in it: REF's open values (log 2), the value of unwritten cells (log 3), the
memory's form and contents (log 5). -/
def Obligations.ResetMeetsInvariant : Prop :=
  (∀ c : Config, (State.ofConfig c).Inv) ∧ State.reset = State.ofConfig Config.ref ∧
    Config.ref.valid = true

/-! ### Command words -/

/-- A command word whose endpoint id is out of range reports E_EP_OUT_OF_RANGE, origin EXEC, and
does nothing else, whatever its opcode (R105, R151, R161). -/
def Obligations.OutOfRangeReported : Prop :=
  ∀ (s : State) (w : Nat), s.cfg.endpointCount ≤ s.cfg.epOf w →
    exec (decodeCommand s.cfg w) s =
      .next { s with
        reports := s.reports ++ [⟨.exec, .epOutOfRange, s.cfg.epOf w, 0⟩] }

/-- R152: IDLE writes nothing; out of range it reports; the idle word is IDLE of endpoint 0. -/
def Obligations.IdleIsNoOp : Prop :=
  ∀ (s : State) (e off : Nat),
    (e < s.cfg.endpointCount → exec (.idle e off) s = .next s) ∧
    (s.cfg.endpointCount ≤ e → exec (.idle e off) s =
      .next { s with reports := s.reports ++ [⟨.exec, .epOutOfRange, e, 0⟩] }) ∧
    (s.cfg.valid = true → decodeCommand s.cfg 0 = .idle 0 0 ∧ exec (.idle 0 0) s = .next s)

/-- R160: an invalid opcode appends one report whose detail is the opcode and does nothing else;
out of range it reports E_EP_OUT_OF_RANGE instead. -/
def Obligations.InvalidOpcodeReported : Prop :=
  ∀ (s : State) (op e off : Nat), 3 ≤ op →
    (e < s.cfg.endpointCount → exec (.invalidOpcode op e off) s =
      .next { s with reports := s.reports ++ [⟨.exec, .invalidOpcode, e, op⟩] }) ∧
    (s.cfg.endpointCount ≤ e → exec (.invalidOpcode op e off) s =
      .next { s with reports := s.reports ++ [⟨.exec, .epOutOfRange, e, 0⟩] })

/-- R182, R158: the consumer advance. Empty: one report and no register written. Otherwise the read
pointer moves by one slot with wraparound, the count goes down by one, and nothing else changes. -/
def Obligations.IncrementReadPointerResult : Prop :=
  ∀ (s : State) (e off : Nat), e < s.cfg.endpointCount →
    (∀ f ∈ [Field.bufferAddr, .bufferSize, .bufferMessageCount, .bufferReadPtr],
      (s.reg e f).written = true) →
    ((s.reg e .bufferMessageCount).value = 0 →
      exec (.incrementReadPointer e off) s =
        .next { s with reports := s.reports ++ [⟨.exec, .bufferEmpty, e, 0⟩] }) ∧
    (0 < (s.reg e .bufferMessageCount).value →
      exec (.incrementReadPointer e off) s =
        .next { s with
          endpoints := s.endpoints.modify e fun p => { p with
            bufferReadPtr :=
              ⟨(if (s.reg e .bufferAddr).value + (s.reg e .bufferSize).value * s.cfg.slotSize ≤
                    (s.reg e .bufferReadPtr).value + s.cfg.slotSize
                then (s.reg e .bufferAddr).value
                else (s.reg e .bufferReadPtr).value + s.cfg.slotSize) % 2 ^ s.cfg.regWidth,
                true⟩
            bufferMessageCount :=
              ⟨((s.reg e .bufferMessageCount).value - 1) % 2 ^ s.cfg.regWidth, true⟩ } })

/-- The rejections of START_OPERATION in their order: mode, busy, size. Each appends one report and
does nothing else (R153, R154, R155, R156, R161). MODE, and MESSAGE_SIZE where the size check is
reached, are `readable` (R55; log 3). -/
def Obligations.StartRejections : Prop :=
  ∀ (s : State) (e off : Nat), e < s.cfg.endpointCount → s.readable e .mode = true →
    ((s.reg e .mode).value = 0 → s.activity e = .idle → s.readable e .messageSize = true) →
    ∀ k, (if (s.reg e .mode).value = 1 then some ErrCode.startOnReceive
        else if (s.reg e .mode).value ≠ 0 then some .invalidMode
        else if s.activity e ≠ .idle then some .epBusy
        else if (s.reg e .messageSize).value = 0 ∨
            s.cfg.maxMessageSize < (s.reg e .messageSize).value + 4 then some .sizeLimit
        else none) = some k →
      exec (.startOperation e off) s =
        .next { s with reports := s.reports ++ [⟨.exec, k, e, 0⟩] }

/-- START_OPERATION accepts, in timed mode: STATUS 1, Transmitting with the captured context,
TX_ISSUE_READ pending, and nothing else changes (R153, R200, R201). The registers it needs are
`readable` (R55; log 3). -/
def Obligations.StartAcceptsTimed : Prop :=
  ∀ (s : State) (e off : Nat), s.cfg.atomicMode = false → s.cfg.valid = true →
    e < s.cfg.endpointCount →
    (∀ f ∈ [Field.mode, .messageAddr, .messageSize, .targetCore, .targetEndpoint],
      s.readable e f = true) →
    (s.reg e .mode).value = 0 → s.activity e = .idle →
    1 ≤ (s.reg e .messageSize).value →
    (s.reg e .messageSize).value + 4 ≤ s.cfg.maxMessageSize →
    exec (.startOperation e off) s = .next { s with
      status := 1
      endpoints := s.endpoints.modify e fun p => { p with
        activity := .transmitting ⟨(s.reg e .messageAddr).value, (s.reg e .messageSize).value,
          (s.reg e .targetCore).value, (s.reg e .targetEndpoint).value⟩ }
      pending := s.pending ++ [.txIssueRead e] }

/-- START_OPERATION in atomic mode runs its whole operation: the local read, the network write and,
with the network's answer, the finalisation; COMMAND and STATUS end at 0 and a rejection is
reported. With no answer of the network the operation stays in flight (R208, R209, R350, R351).
Before that the memory's answer decides: its data is the payload, a failure or data of the wrong
length faults, and with no answer the read stays in flight (R92, R203, U8). Where the answers come
from is the model's (log 9, log 26), and so is that a failure stops first, whatever data comes with
it (log 28). The message goes to another core. The registers it needs are `readable` (R55; log
3). -/
def Obligations.StartRunsWholeInAtomicMode : Prop :=
  ∀ (s : State) (e off : Nat), s.cfg.atomicMode = true → s.cfg.valid = true →
    e < s.cfg.endpointCount → s.shaped →
    (∀ f ∈ [Field.mode, .messageAddr, .messageSize, .targetCore, .targetEndpoint],
      s.readable e f = true) →
    (s.reg e .mode).value = 0 → s.activity e = .idle →
    1 ≤ (s.reg e .messageSize).value →
    (s.reg e .messageSize).value + 4 ≤ s.cfg.maxMessageSize →
    (∀ t ∈ s.outstanding, t.ep ≠ e) →
    ∀ addr len naddr ctx, addr = (s.reg e .messageAddr).value →
    len = (s.reg e .messageSize).value →
    naddr = s.cfg.encodeNetworkAddress (s.reg e .targetCore).value
      (s.reg e .targetEndpoint).value →
    ctx = (⟨addr, len, (s.reg e .targetCore).value, (s.reg e .targetEndpoint).value⟩ : TxCtx) →
    (s.memAnswers.head? = some .silent →
      exec (.startOperation e off) s = .next { s with
        status := 1
        endpoints := s.endpoints.modify e fun p => { p with activity := .transmitting ctx }
        memOut := s.memOut ++ [⟨addr, len, .read, [], .localTag, e⟩]
        memAnswers := s.memAnswers.tail
        outstanding := s.outstanding ++ [⟨.mem, .localTag, e, addr, len, []⟩] }) ∧
    (∀ d, s.memAnswers.head? = some (.response d true) →
      exec (.startOperation e off) s = .fault (.fabricFailure .localTag e)) ∧
    (∀ d, s.memAnswers.head? = some (.response d false) → d.length ≠ len →
      exec (.startOperation e off) s = .fault (.responseLength e)) ∧
    (∀ d ms, memGives s.memAnswers (readBytes s.cfg s.mem addr len) d ms → d.length = len →
      s.cfg.netCoreOf naddr ≠ s.cfg.coreId →
      (∀ st rest, s.netAnswers = st :: rest →
        exec (.startOperation e off) s = .next { s with
          command := 0
          status := 0
          memOut := s.memOut ++ [⟨addr, len, .read, [], .localTag, e⟩]
          netOut := s.netOut ++
            [⟨naddr, 4 + len, header s.cfg.coreId e len ++ d, .localTag, e⟩]
          memAnswers := ms
          netAnswers := rest
          reports := s.reports ++
            match st with
            | .ack => []
            | .reject k => [⟨.tx, .remoteRejected, e, k.number⟩] }) ∧
      (s.netAnswers = [] →
        exec (.startOperation e off) s = .next { s with
          status := 1
          endpoints := s.endpoints.modify e fun p => { p with activity := .transmitting ctx }
          memOut := s.memOut ++ [⟨addr, len, .read, [], .localTag, e⟩]
          netOut := s.netOut ++
            [⟨naddr, 4 + len, header s.cfg.coreId e len ++ d, .localTag, e⟩]
          memAnswers := ms
          outstanding := s.outstanding ++ [⟨.net, .localTag, e, naddr, 4 + len, []⟩] }))

/-- A message this unit sends to an endpoint of its own, in atomic mode, is one step. Accepted: it
reads the bytes, writes them at the receiver's write pointer, advances its ring buffer, acknowledges
and finalises. Accepted with no answer of the memory to the write: the sender stays Transmitting and
the receiver Receiving. Refused by the receive chain: two reports, no byte and no register of an
endpoint changes, and it finalises (R207, R210, R241, R254, R351; the reply handle is the model's,
log 18). Where the memory's answers come from (log 26) and when the bytes change (log 6) is the
model's. The registers it needs are `readable` (R55; log 3). -/
def Obligations.SelfMessageInAtomicMode : Prop :=
  ∀ (s : State) (e off f : Nat), s.cfg.atomicMode = true → s.cfg.valid = true →
    s.shaped → e < s.cfg.endpointCount →
    (∀ r ∈ [Field.mode, .messageAddr, .messageSize, .targetCore, .targetEndpoint],
      s.readable e r = true) →
    (s.reg e .mode).value = 0 → s.activity e = .idle →
    1 ≤ (s.reg e .messageSize).value →
    (s.reg e .messageSize).value + 4 ≤ s.cfg.maxMessageSize →
    (∀ t ∈ s.outstanding, t.ep ≠ e) →
    ∀ addr len naddr payload wptr ms, addr = (s.reg e .messageAddr).value →
    len = (s.reg e .messageSize).value →
    naddr = s.cfg.encodeNetworkAddress (s.reg e .targetCore).value
      (s.reg e .targetEndpoint).value →
    s.cfg.netCoreOf naddr = s.cfg.coreId → s.cfg.netEpOf naddr = f →
    memGives s.memAnswers (readBytes s.cfg s.mem addr len) payload ms → payload.length = len →
    wptr = (s.reg f .bufferWritePtr).value →
    (s.arrivalRefusal f = none → (∀ t ∈ s.outstanding, t.ep ≠ f) →
      (∀ r ∈ [Field.mode, .bufferAddr, .bufferMessageCount, .bufferSize, .bufferWritePtr],
        s.readable f r = true) →
      (∀ ms2, memGives ms [] [] ms2 → exec (.startOperation e off) s = .next { s with
        command := 0
        status := 0
        mem := writeBytes s.cfg s.mem wptr payload
        memAnswers := ms2
        memOut := s.memOut ++ [⟨addr, len, .read, [], .localTag, e⟩,
          ⟨wptr, len, .write, payload, .forwardedTag, f⟩]
        netOut := s.netOut ++
          [⟨naddr, 4 + len, header s.cfg.coreId e len ++ payload, .localTag, e⟩]
        netInOut := s.netInOut ++ [⟨.own e, .ack⟩]
        endpoints := s.endpoints.modify f fun p => { p with
          bufferWritePtr :=
            ⟨(if (s.reg f .bufferAddr).value + (s.reg f .bufferSize).value * s.cfg.slotSize ≤
                  wptr + s.cfg.slotSize
              then (s.reg f .bufferAddr).value
              else wptr + s.cfg.slotSize) % 2 ^ s.cfg.regWidth, true⟩
          bufferMessageCount :=
            ⟨((s.reg f .bufferMessageCount).value + 1) % 2 ^ s.cfg.regWidth, true⟩ } }) ∧
      (ms.head? = some .silent → exec (.startOperation e off) s = .next { s with
        status := 1
        mem := writeBytes s.cfg s.mem wptr payload
        memAnswers := ms.tail
        memOut := s.memOut ++ [⟨addr, len, .read, [], .localTag, e⟩,
          ⟨wptr, len, .write, payload, .forwardedTag, f⟩]
        netOut := s.netOut ++
          [⟨naddr, 4 + len, header s.cfg.coreId e len ++ payload, .localTag, e⟩]
        outstanding := s.outstanding ++ [⟨.net, .localTag, e, naddr, 4 + len, []⟩,
          ⟨.mem, .forwardedTag, f, wptr, len, []⟩]
        endpoints := (s.endpoints.modify e fun p => { p with
            activity := .transmitting ⟨addr, len, (s.reg e .targetCore).value,
              (s.reg e .targetEndpoint).value⟩ }).modify f fun p => { p with
            activity := .receiving ⟨s.cfg.coreId, e, len, payload, .own e⟩ } })) ∧
    (∀ k, s.arrivalRefusal f = some k →
      (f < s.cfg.endpointCount → s.readable f .mode = true) →
      (k = .bufferFull →
        s.readable f .bufferMessageCount = true ∧ s.readable f .bufferSize = true) →
      exec (.startOperation e off) s = .next { s with
        command := 0
        status := 0
        memAnswers := ms
        memOut := s.memOut ++ [⟨addr, len, .read, [], .localTag, e⟩]
        netOut := s.netOut ++
          [⟨naddr, 4 + len, header s.cfg.coreId e len ++ payload, .localTag, e⟩]
        netInOut := s.netInOut ++ [⟨.own e, .reject k⟩]
        reports := s.reports ++ [⟨.rx, k, f, 0⟩, ⟨.tx, .remoteRejected, e, k.number⟩] })

/-- The transmit path never touches a register of the sending endpoint, in either mode and for
every target, the sending unit itself included (R34, R210). -/
def Obligations.StartKeepsEndpointRegisters : Prop :=
  ∀ (s t : State) (e off : Nat), exec (.startOperation e off) s = .next t →
    ∀ f, t.reg e f = s.reg e f

/-- In timed mode a command word changes neither COMMAND, nor local memory, nor a port, nor what is
outstanding, nor another endpoint, nor any register but the read pointer and count of an
INCREMENT_READ_POINTER; only START_OPERATION writes STATUS (R161, R162, R163). -/
def Obligations.TimedCommandFrame : Prop :=
  ∀ (s t : State) (w : Nat), s.cfg.atomicMode = false →
    exec (decodeCommand s.cfg w) s = .next t →
    t.cfg = s.cfg ∧ t.command = s.command ∧ (∀ a, readByte t.mem a = readByte s.mem a) ∧
    t.outstanding = s.outstanding ∧ t.memOut = s.memOut ∧ t.netOut = s.netOut ∧
    t.netInOut = s.netInOut ∧ t.accessOut = s.accessOut ∧
    (∀ x, x ≠ s.cfg.epOf w → t.ep x = s.ep x) ∧
    (∀ f, ¬(s.cfg.opcodeOf w = 2 ∧ (f = .bufferReadPtr ∨ f = .bufferMessageCount)) →
      t.reg (s.cfg.epOf w) f = s.reg (s.cfg.epOf w) f) ∧
    (s.cfg.opcodeOf w ≠ 1 →
      t.status = s.status ∧ t.pending = s.pending ∧
        ∀ x, t.activity x = s.activity x)

/-! ### The ring buffer -/

/-- R186: in a buffer that meets its conditions, a successful advance takes the pointer at slot `k`
to slot `(k+1) mod cap` and the occupancy stays in `[0, cap]`. Registers hold REG_WIDTH bits
(R31, `regsFit`, which every step keeps). -/
def Obligations.AdvanceKeepsSlot : Prop :=
  ∀ (s : State) (e k : Nat), s.regsFit → e < s.endpoints.length → 0 < s.cfg.slotSize →
    ∀ base cap occ, base = (s.reg e .bufferAddr).value → cap = (s.reg e .bufferSize).value →
    occ = (s.reg e .bufferMessageCount).value →
    1 ≤ cap → base + cap * s.cfg.slotSize ≤ 2 ^ s.cfg.regWidth → k < cap → occ ≤ cap →
    ((s.reg e .bufferReadPtr).value = base + k * s.cfg.slotSize → 0 < occ →
      ∀ t, fcAdvanceRead e s = .next t →
        (t.reg e .bufferReadPtr).value = base + (k + 1) % cap * s.cfg.slotSize ∧
        (t.reg e .bufferMessageCount).value = occ - 1) ∧
    ((s.reg e .bufferWritePtr).value = base + k * s.cfg.slotSize →
      ∀ t, fcAdvanceWrite e s = .next (t, .ack) →
        (t.reg e .bufferWritePtr).value = base + (k + 1) % cap * s.cfg.slotSize ∧
        (t.reg e .bufferMessageCount).value = occ + 1 ∧ occ + 1 ≤ cap)

/-- Consecutive advances of a ring buffer that meets R186, from a pointer at `base`: after `j`
successful ones the pointer is at slot `j mod cap`, so after `cap` it is back at `base`, and the
occupancy has changed by `j` (R182, R183, R186, R188). Registers hold REG_WIDTH bits (R31) and are
`readable` (R55; log 3). -/
def Obligations.AdvancePeriod : Prop :=
  ∀ (s : State) (e base cap occ : Nat), s.regsFit → e < s.endpoints.length →
    0 < s.cfg.slotSize → base = (s.reg e .bufferAddr).value →
    cap = (s.reg e .bufferSize).value → occ = (s.reg e .bufferMessageCount).value →
    1 ≤ cap → base + cap * s.cfg.slotSize ≤ 2 ^ s.cfg.regWidth →
    (∀ f ∈ [Field.bufferAddr, .bufferSize, .bufferMessageCount, .bufferReadPtr, .bufferWritePtr],
      s.readable e f = true) →
    ((s.reg e .bufferReadPtr).value = base → ∀ j, j ≤ occ →
      ∃ t, repeated (fcAdvanceRead e) j s = .next t ∧ t.reports = s.reports ∧
        (t.reg e .bufferReadPtr).value = base + j % cap * s.cfg.slotSize ∧
        (t.reg e .bufferMessageCount).value = occ - j) ∧
    ((s.reg e .bufferWritePtr).value = base → ∀ j, occ + j ≤ cap →
      ∃ t, repeated (fun u => andThen (fcAdvanceWrite e u) fun r => .next r.1) j s = .next t ∧
        t.reports = s.reports ∧
        (t.reg e .bufferWritePtr).value = base + j % cap * s.cfg.slotSize ∧
        (t.reg e .bufferMessageCount).value = occ + j)

/-- TU-CORE keeps a ring buffer that meets R186: no step that is not a software write to that
endpoint takes it out (R36, R186). -/
def Obligations.RingInvariantKept : Prop :=
  ∀ (s t : State) (e : Nat), ringOk s.cfg (s.ep e) →
    (∀ ev rest, s.timeline = ev :: rest → ev.writesEndpoint s.cfg e = false) →
    step s = .next t → ringOk t.cfg (t.ep e)

/-! ### The transmit sequencer -/

/-- EV_TX_READ_DONE in timed mode: the tag is freed and TX_SEND is pending with the header and the
read data; nothing else changes (R203, R205). -/
def Obligations.TxReadDoneTimed : Prop :=
  ∀ (s : State) (e : Nat) (d : Bytes) (x : TxCtx) (g : Txn), s.cfg.atomicMode = false →
    g ∈ s.outstanding → g.hasTag .mem .localTag e = true → s.activity e = .transmitting x →
    d.length = x.length →
    exec (.evTxReadDone e d) s = .next { s with
      outstanding := s.outstanding.filter fun y => !y.hasTag .mem .localTag e
      pending := s.pending ++ [.txSend e (header s.cfg.coreId e x.length ++ d)] }

/-- EV_TX_READ_DONE in atomic mode: the network write follows within the step, and so does what its
answer causes. To another core: with an answer the operation finalises, and a rejection is reported;
with none it stays in flight (R203, R204, R206, R207, R209, R351; where the answer comes from is the
model's, log 9). To this unit's own core: its receive chain runs, and accepts or refuses the message
(R210, R241, R254; log 18; when the bytes change, log 6; the memory's answer to the write, log 26).
The registers it needs are `readable` (R55; log 3). -/
def Obligations.TxReadDoneAtomic : Prop :=
  ∀ (s : State) (e : Nat) (d : Bytes) (x : TxCtx) (g : Txn), s.cfg.valid = true →
    s.cfg.atomicMode = true → s.shaped → g ∈ s.outstanding →
    g.hasTag .mem .localTag e = true → s.activity e = .transmitting x → d.length = x.length →
    1 ≤ x.length → x.length + 4 ≤ s.cfg.maxMessageSize →
    ∀ naddr f req rest, naddr = s.cfg.encodeNetworkAddress x.targetCore x.targetEp →
    f = s.cfg.netEpOf naddr →
    req = (⟨naddr, 4 + x.length, header s.cfg.coreId e x.length ++ d, .localTag, e⟩ : NetReq) →
    rest = (s.outstanding.filter fun y => !y.hasTag .mem .localTag e).filter
      (fun y => !y.hasTag .net .localTag e) →
    (s.cfg.netCoreOf naddr ≠ s.cfg.coreId → ∀ st answers, s.netAnswers = st :: answers →
      exec (.evTxReadDone e d) s = .next { s with
        command := 0
        status := 0
        endpoints := s.endpoints.modify e fun p => { p with activity := .idle }
        outstanding := rest
        netOut := s.netOut ++ [req]
        netAnswers := answers
        reports := s.reports ++
          match st with
          | .ack => []
          | .reject k => [⟨.tx, .remoteRejected, e, k.number⟩] }) ∧
    (s.cfg.netCoreOf naddr ≠ s.cfg.coreId → s.netAnswers = [] →
      exec (.evTxReadDone e d) s = .next { s with
        outstanding := rest ++ [⟨.net, .localTag, e, naddr, 4 + x.length, []⟩]
        netOut := s.netOut ++ [req] }) ∧
    (s.cfg.netCoreOf naddr = s.cfg.coreId → s.arrivalRefusal f = none →
      (∀ r ∈ [Field.mode, .bufferAddr, .bufferMessageCount, .bufferSize, .bufferWritePtr],
        s.readable f r = true) →
      ∀ wptr ms, wptr = (s.reg f .bufferWritePtr).value → memGives s.memAnswers [] [] ms →
      exec (.evTxReadDone e d) s = .next { s with
        command := 0
        status := 0
        mem := writeBytes s.cfg s.mem wptr d
        memAnswers := ms
        memOut := s.memOut ++ [⟨wptr, x.length, .write, d, .forwardedTag, f⟩]
        netOut := s.netOut ++ [req]
        netInOut := s.netInOut ++ [⟨.own e, .ack⟩]
        outstanding := rest.filter fun y => !y.hasTag .mem .forwardedTag f
        endpoints := (s.endpoints.modify f fun p => { p with
          bufferWritePtr :=
            ⟨(if (s.reg f .bufferAddr).value + (s.reg f .bufferSize).value * s.cfg.slotSize ≤
                  wptr + s.cfg.slotSize
              then (s.reg f .bufferAddr).value
              else wptr + s.cfg.slotSize) % 2 ^ s.cfg.regWidth, true⟩
          bufferMessageCount :=
            ⟨((s.reg f .bufferMessageCount).value + 1) % 2 ^ s.cfg.regWidth, true⟩ }).modify e
          fun p => { p with activity := .idle } }) ∧
    (s.cfg.netCoreOf naddr = s.cfg.coreId → s.arrivalRefusal f = none →
      (∀ r ∈ [Field.mode, .bufferMessageCount, .bufferSize, .bufferWritePtr],
        s.readable f r = true) →
      s.memAnswers.head? = some .silent → ∀ wptr, wptr = (s.reg f .bufferWritePtr).value →
      exec (.evTxReadDone e d) s = .next { s with
        mem := writeBytes s.cfg s.mem wptr d
        memAnswers := s.memAnswers.tail
        memOut := s.memOut ++ [⟨wptr, x.length, .write, d, .forwardedTag, f⟩]
        netOut := s.netOut ++ [req]
        outstanding := (rest ++
            [(⟨.net, .localTag, e, naddr, 4 + x.length, []⟩ : Txn)]).filter
          (fun y => !y.hasTag .mem .forwardedTag f) ++
            [⟨.mem, .forwardedTag, f, wptr, x.length, []⟩]
        endpoints := s.endpoints.modify f fun p => { p with
          activity := .receiving ⟨s.cfg.coreId, e, x.length, d, .own e⟩ } }) ∧
    (s.cfg.netCoreOf naddr = s.cfg.coreId → ∀ k, s.arrivalRefusal f = some k →
      (f < s.cfg.endpointCount → s.readable f .mode = true) →
      (k = .bufferFull →
        s.readable f .bufferMessageCount = true ∧ s.readable f .bufferSize = true) →
      exec (.evTxReadDone e d) s = .next { s with
        command := 0
        status := 0
        endpoints := s.endpoints.modify e fun p => { p with activity := .idle }
        outstanding := rest
        netOut := s.netOut ++ [req]
        netInOut := s.netInOut ++ [⟨.own e, .reject k⟩]
        reports := s.reports ++ [⟨.rx, k, f, 0⟩, ⟨.tx, .remoteRejected, e, k.number⟩] })

/-- TX_ISSUE_READ and TX_SEND, the pending continuations of timed mode: the local read at the
captured address, and the network write to the captured target (R202, R204, R208). -/
def Obligations.TxContinuationsTimed : Prop :=
  ∀ (s : State) (k e : Nat) (rest : List Event) (x : TxCtx) (msg : Bytes),
    s.cfg.valid = true → s.cfg.atomicMode = false → s.timeline = .run k :: rest →
    s.activity e = .transmitting x →
    (s.pending[k]? = some (.txIssueRead e) →
      step s = .next { s with
        timeline := rest
        pending := s.pending.eraseIdx k
        memOut := s.memOut ++ [⟨x.msgAddr, x.length, .read, [], .localTag, e⟩]
        outstanding := (s.outstanding.filter fun y => !y.hasTag .mem .localTag e) ++
          [⟨.mem, .localTag, e, x.msgAddr, x.length, []⟩] }) ∧
    (s.pending[k]? = some (.txSend e msg) →
      step s = .next { s with
        timeline := rest
        pending := s.pending.eraseIdx k
        netOut := s.netOut ++ [⟨s.cfg.encodeNetworkAddress x.targetCore x.targetEp,
          4 + x.length, msg, .localTag, e⟩]
        outstanding := (s.outstanding.filter fun y => !y.hasTag .net .localTag e) ++
          [⟨.net, .localTag, e, s.cfg.encodeNetworkAddress x.targetCore x.targetEp,
            4 + x.length, []⟩] })

/-- EV_TX_ACK and EV_TX_NACK in timed mode: the tag is freed and TX_FINAL is pending (R206,
R207). -/
def Obligations.TxAnswerTimed : Prop :=
  ∀ (s : State) (e : Nat) (x : TxCtx) (g : Txn), s.cfg.atomicMode = false →
    g ∈ s.outstanding → g.hasTag .net .localTag e = true → s.activity e = .transmitting x →
    exec (.evTxAck e) s = .next { s with
      outstanding := s.outstanding.filter fun y => !y.hasTag .net .localTag e
      pending := s.pending ++ [.txFinal e .ack] } ∧
    ∀ k, exec (.evTxNack e k) s = .next { s with
      outstanding := s.outstanding.filter fun y => !y.hasTag .net .localTag e
      pending := s.pending ++ [.txFinal e (.reject k)] }

/-- EV_TX_ACK and EV_TX_NACK in atomic mode finalise within the step: COMMAND 0, STATUS 0, Idle,
and for a rejection E_REMOTE_REJECTED with the peer's code (R206, R207, R351). -/
def Obligations.TxAnswerAtomic : Prop :=
  ∀ (s : State) (e : Nat) (x : TxCtx) (g : Txn), s.cfg.atomicMode = true →
    g ∈ s.outstanding → g.hasTag .net .localTag e = true → s.activity e = .transmitting x →
    exec (.evTxAck e) s = .next { s with
      command := 0
      status := 0
      endpoints := s.endpoints.modify e fun p => { p with activity := .idle }
      outstanding := s.outstanding.filter fun y => !y.hasTag .net .localTag e } ∧
    ∀ k, exec (.evTxNack e k) s = .next { s with
      command := 0
      status := 0
      endpoints := s.endpoints.modify e fun p => { p with activity := .idle }
      outstanding := s.outstanding.filter fun y => !y.hasTag .net .localTag e
      reports := s.reports ++ [⟨.tx, .remoteRejected, e, k.number⟩] }

/-- TX_FINAL, the pending continuation of timed mode (R206, R207, R362): COMMAND and STATUS go to 0
whatever they held, the endpoint is Idle, a rejection is reported, no executor run is caused. -/
def Obligations.TxFinalStep : Prop :=
  ∀ (s : State) (k e : Nat) (rest : List Event) (st : NetStatus), s.cfg.valid = true →
    s.timeline = .run k :: rest → s.pending[k]? = some (.txFinal e st) →
    step s = .next { s with
      timeline := rest
      pending := s.pending.eraseIdx k
      command := 0
      status := 0
      endpoints := s.endpoints.modify e fun p => { p with activity := .idle }
      reports := s.reports ++
        match st with
        | .ack => []
        | .reject c => [⟨.tx, .remoteRejected, e, c.number⟩] }

/-- A response that matches no outstanding tag faults, and so do a memory response that signals
failure, a local read's response whose data has the wrong length, and an arrival, of a message or
not, whose data length differs from its size (R92, R203, R240, R307). No NET tag is FORWARDED, so a
network response of that tag matches none (R41). That a write's response with data has the wrong
length is the model's reading of R46 (log 14), and that a failure and such data stop whatever the
tag and the endpoint's state are is the model's choice (log 28). -/
def Obligations.FabricFaults : Prop :=
  ∀ (s : State) (e : Nat) (d : Bytes) (k : ErrCode),
    ((∀ g ∈ s.outstanding, g.hasTag .mem .localTag e = false) →
      exec (.evTxReadDone e d) s = .fault (.unmatchedResponse .mem .localTag e)) ∧
    ((∀ g ∈ s.outstanding, g.hasTag .net .localTag e = false) →
      exec (.evTxAck e) s = .fault (.unmatchedResponse .net .localTag e) ∧
      exec (.evTxNack e k) s = .fault (.unmatchedResponse .net .localTag e)) ∧
    ((∀ g ∈ s.outstanding, g.hasTag .mem .forwardedTag e = false) →
      exec (.evRxWriteDone e) s = .fault (.unmatchedResponse .mem .forwardedTag e)) ∧
    (∀ x g, g ∈ s.outstanding → g.hasTag .mem .localTag e = true →
      s.activity e = .transmitting x → d.length ≠ x.length →
      exec (.evTxReadDone e d) s = .fault (.responseLength e)) ∧
    (∀ addr size reply, d.length ≠ size →
      exec (.evRxMsg addr size d reply) s = .fault .netInLength) ∧
    (s.cfg.valid = true → ∀ rest,
      (∀ t, s.timeline = .netIn t :: rest → t.data.length ≠ t.size →
        step s = .fault .netInLength) ∧
      (∀ r, s.timeline = .memResp r :: rest → r.failed = true →
        step s = .fault (.fabricFailure r.disc r.ep)) ∧
      (∀ r, s.timeline = .memResp r :: rest → r.failed = false → r.disc = .forwardedTag →
        r.data ≠ [] → step s = .fault (.responseLength r.ep)) ∧
      ∀ r, s.timeline = .netResp r :: rest → r.disc = .forwardedTag →
        step s = .fault (.unmatchedResponse .net .forwardedTag r.ep))

/-- A response whose tag is outstanding but whose endpoint is not in the state its handler expects
frees the tag and reports E_SPURIOUS_COMPLETION; nothing else changes (R306). -/
def Obligations.SpuriousCompletionReported : Prop :=
  ∀ (s : State) (e : Nat) (d : Bytes) (k : ErrCode) (g : Txn), g ∈ s.outstanding →
    ((∀ x, s.activity e ≠ .transmitting x) →
      (g.hasTag .mem .localTag e = true →
        exec (.evTxReadDone e d) s = .next { s with
          outstanding := s.outstanding.filter fun y => !y.hasTag .mem .localTag e
          reports := s.reports ++ [⟨.tx, .spuriousCompletion, e, 0⟩] }) ∧
      (g.hasTag .net .localTag e = true →
        exec (.evTxAck e) s = .next { s with
          outstanding := s.outstanding.filter fun y => !y.hasTag .net .localTag e
          reports := s.reports ++ [⟨.tx, .spuriousCompletion, e, 0⟩] } ∧
        exec (.evTxNack e k) s = .next { s with
          outstanding := s.outstanding.filter fun y => !y.hasTag .net .localTag e
          reports := s.reports ++ [⟨.tx, .spuriousCompletion, e, 0⟩] })) ∧
    ((∀ x, s.activity e ≠ .receiving x) → g.hasTag .mem .forwardedTag e = true →
      exec (.evRxWriteDone e) s = .next { s with
        outstanding := s.outstanding.filter fun y => !y.hasTag .mem .forwardedTag e
        reports := s.reports ++ [⟨.rx, .spuriousCompletion, e, 0⟩] })

/-! ### The receive sequencer -/

/-- The rejections of an arriving message in their order: range, mode, busy, malformed, size,
occupancy. Each answers REJECT and appends one report, and nothing else changes (R241, R243, R244,
R245, R247, R249). MODE of an endpoint in range, and the two registers of the occupancy check where
that check is reached, are `readable` (R55; log 3). -/
def Obligations.ArrivalRejections : Prop :=
  ∀ (s : State) (addr size : Nat) (data : Bytes) (reply : Reply), data.length = size →
    ∀ f, f = s.cfg.netEpOf addr →
    (f < s.cfg.endpointCount → s.readable f .mode = true) →
    ∀ early, early =
      (if s.cfg.endpointCount ≤ f then some ErrCode.epOutOfRange
        else if (s.reg f .mode).value = 0 then some .notReceive
        else if (s.reg f .mode).value ≠ 1 then some .invalidMode
        else if s.activity f ≠ .idle then some .epBusy
        else if size < 4 then some .malformed
        else if (data.getD 2 0).toNat + 256 * (data.getD 3 0).toNat = 0 ∨
            (data.getD 2 0).toNat + 256 * (data.getD 3 0).toNat ≠ size - 4 then some .malformed
        else if s.cfg.maxMessageSize < size then some .sizeLimit
        else none) →
    ∀ k, (early = some k ∨ (early = none ∧ k = .bufferFull ∧
        s.readable f .bufferMessageCount = true ∧ s.readable f .bufferSize = true ∧
        (s.reg f .bufferSize).value ≤ (s.reg f .bufferMessageCount).value)) →
      exec (.evRxMsg addr size data reply) s = .next { s with
        netInOut := s.netInOut ++ [⟨reply, .reject k⟩]
        reports := s.reports ++ [⟨.rx, k, f, 0⟩] }

/-- An accepted message in timed mode: Receiving with the header fields and the payload captured,
RX_ISSUE_WRITE pending, and nothing else changes (R241, R246, R248). The registers it needs are
`readable` (R55; log 3). -/
def Obligations.ArrivalAcceptedTimed : Prop :=
  ∀ (s : State) (addr : Nat) (sc se lo hi : Byte) (payload : Bytes) (reply : Reply) (n : Nat),
    s.cfg.atomicMode = false → n = lo.toNat + 256 * hi.toNat → n = payload.length → 0 < n →
    4 + n ≤ s.cfg.maxMessageSize →
    ∀ f, f = s.cfg.netEpOf addr → f < s.cfg.endpointCount →
    (∀ r ∈ [Field.mode, .bufferMessageCount, .bufferSize], s.readable f r = true) →
    (s.reg f .mode).value = 1 → s.activity f = .idle →
    (s.reg f .bufferMessageCount).value < (s.reg f .bufferSize).value →
    exec (.evRxMsg addr (4 + n) (sc :: se :: lo :: hi :: payload) reply) s = .next { s with
      endpoints := s.endpoints.modify f fun p => { p with
        activity := .receiving ⟨sc.toNat, se.toNat, n, payload, reply⟩ }
      pending := s.pending ++ [.rxIssueWrite f] }

/-- An accepted message in atomic mode runs its whole chain in the step: one local write of the
payload at the write pointer, one producer advance, one ACK (R254, R255). With no answer of the
memory the write stays in flight, and a failure or a response with data faults (R92, R307, U8; log
14). Where the memory's answer comes from (log 26), when the bytes change (log 6) and that an answer
which both fails and carries data stops as the failure (log 28) is the model's. The registers it
needs are `readable` (R55; log 3). -/
def Obligations.ArrivalRunsWholeInAtomicMode : Prop :=
  ∀ (s : State) (addr : Nat) (sc se lo hi : Byte) (payload : Bytes) (reply : Reply) (n : Nat),
    s.cfg.atomicMode = true → s.shaped → n = lo.toNat + 256 * hi.toNat →
    n = payload.length → 0 < n → 4 + n ≤ s.cfg.maxMessageSize →
    ∀ f, f = s.cfg.netEpOf addr → f < s.cfg.endpointCount →
    (∀ r ∈ [Field.mode, .bufferAddr, .bufferMessageCount, .bufferSize, .bufferWritePtr],
      s.readable f r = true) →
    (s.reg f .mode).value = 1 → s.activity f = .idle →
    (s.reg f .bufferMessageCount).value < (s.reg f .bufferSize).value →
    (∀ t ∈ s.outstanding, t.ep ≠ f) →
    ∀ wptr, wptr = (s.reg f .bufferWritePtr).value →
    (∀ ms, memGives s.memAnswers [] [] ms →
      exec (.evRxMsg addr (4 + n) (sc :: se :: lo :: hi :: payload) reply) s = .next { s with
        mem := writeBytes s.cfg s.mem wptr payload
        memAnswers := ms
        memOut := s.memOut ++ [⟨wptr, n, .write, payload, .forwardedTag, f⟩]
        netInOut := s.netInOut ++ [⟨reply, .ack⟩]
        endpoints := s.endpoints.modify f fun p => { p with
          bufferWritePtr :=
            ⟨(if (s.reg f .bufferAddr).value + (s.reg f .bufferSize).value * s.cfg.slotSize ≤
                  wptr + s.cfg.slotSize
              then (s.reg f .bufferAddr).value
              else wptr + s.cfg.slotSize) % 2 ^ s.cfg.regWidth, true⟩
          bufferMessageCount :=
            ⟨((s.reg f .bufferMessageCount).value + 1) % 2 ^ s.cfg.regWidth, true⟩ } }) ∧
    (s.memAnswers.head? = some .silent →
      exec (.evRxMsg addr (4 + n) (sc :: se :: lo :: hi :: payload) reply) s = .next { s with
        mem := writeBytes s.cfg s.mem wptr payload
        memAnswers := s.memAnswers.tail
        memOut := s.memOut ++ [⟨wptr, n, .write, payload, .forwardedTag, f⟩]
        outstanding := s.outstanding ++ [⟨.mem, .forwardedTag, f, wptr, n, []⟩]
        endpoints := s.endpoints.modify f fun p => { p with
          activity := .receiving ⟨sc.toNat, se.toNat, n, payload, reply⟩ } }) ∧
    ∀ d failed, s.memAnswers.head? = some (.response d failed) → failed = true ∨ d ≠ [] →
      exec (.evRxMsg addr (4 + n) (sc :: se :: lo :: hi :: payload) reply) s =
        .fault (if failed then .fabricFailure .forwardedTag f else .responseLength f)

/-- R242: a non-message transaction is answered REJECT(E_UNSUPPORTED) and reported, with no other
effect, whatever endpoint it names and in whatever state. -/
def Obligations.NonMessageUnsupported : Prop :=
  ∀ (s : State) (addr : Nat) (reply : Reply),
    exec (.evRxUnsupported addr reply) s = .next { s with
      netInOut := s.netInOut ++ [⟨reply, .reject .unsupported⟩]
      reports := s.reports ++ [⟨.rx, .unsupported, s.cfg.netEpOf addr, 0⟩] }

/-- EV_RX_WRITE_DONE frees the tag (R251). In timed mode RX_FINISH is then pending; in atomic mode
RX_FINISH runs within the step: with room the producer advance and ACK, else E_BUFFER_FULL and
REJECT, and Idle in both cases (R252, R253, R351). The registers it needs are `readable` (R55; log
3). -/
def Obligations.RxWriteDone : Prop :=
  ∀ (s : State) (f : Nat) (c : RxCtx) (g : Txn),
    g ∈ s.outstanding → g.hasTag .mem .forwardedTag f = true → s.activity f = .receiving c →
    (s.cfg.atomicMode = false → exec (.evRxWriteDone f) s = .next { s with
      outstanding := s.outstanding.filter fun y => !y.hasTag .mem .forwardedTag f
      pending := s.pending ++ [.rxFinish f] }) ∧
    (s.cfg.atomicMode = true →
      (∀ r ∈ [Field.bufferAddr, .bufferSize, .bufferMessageCount, .bufferWritePtr],
        s.readable f r = true) →
      ((s.reg f .bufferMessageCount).value < (s.reg f .bufferSize).value →
        exec (.evRxWriteDone f) s = .next { s with
          outstanding := s.outstanding.filter fun y => !y.hasTag .mem .forwardedTag f
          netInOut := s.netInOut ++ [⟨c.reply, .ack⟩]
          endpoints := s.endpoints.modify f fun p => { p with
            bufferWritePtr :=
              ⟨(if (s.reg f .bufferAddr).value + (s.reg f .bufferSize).value * s.cfg.slotSize ≤
                    (s.reg f .bufferWritePtr).value + s.cfg.slotSize
                then (s.reg f .bufferAddr).value
                else (s.reg f .bufferWritePtr).value + s.cfg.slotSize) % 2 ^ s.cfg.regWidth,
                true⟩
            bufferMessageCount :=
              ⟨((s.reg f .bufferMessageCount).value + 1) % 2 ^ s.cfg.regWidth, true⟩
            activity := .idle } }) ∧
      ((s.reg f .bufferSize).value ≤ (s.reg f .bufferMessageCount).value →
        exec (.evRxWriteDone f) s = .next { s with
          outstanding := s.outstanding.filter fun y => !y.hasTag .mem .forwardedTag f
          netInOut := s.netInOut ++ [⟨c.reply, .reject .bufferFull⟩]
          reports := s.reports ++ [⟨.rx, .bufferFull, f, 0⟩]
          endpoints := s.endpoints.modify f fun p => { p with activity := .idle } }))

/-- RX_ISSUE_WRITE in timed mode: one local write of the payload at the write pointer as it stands
at this step; each payload byte is then at its address and every other byte is as before (R250,
R255; that the bytes change at this step is the model's reading, log 6). The registers it needs are
`readable` (R55; log 3). -/
def Obligations.RxIssueWriteStep : Prop :=
  ∀ (s : State) (k f : Nat) (rest : List Event) (c : RxCtx), s.cfg.valid = true →
    s.cfg.atomicMode = false → s.timeline = .run k :: rest →
    s.pending[k]? = some (.rxIssueWrite f) → s.activity f = .receiving c →
    s.readable f .bufferWritePtr = true → s.mem.wf → c.payload.length ≤ 2 ^ s.cfg.regWidth →
    ∀ wptr, wptr = (s.reg f .bufferWritePtr).value →
    ∃ m, step s = .next { s with
        timeline := rest
        pending := s.pending.eraseIdx k
        mem := m
        memOut := s.memOut ++ [⟨wptr, c.length, .write, c.payload, .forwardedTag, f⟩]
        outstanding := (s.outstanding.filter fun y => !y.hasTag .mem .forwardedTag f) ++
          [⟨.mem, .forwardedTag, f, wptr, c.length, []⟩] } ∧
      m.wf ∧
      (∀ i, ∀ hi : i < c.payload.length,
        readByte m ((wptr + i) % 2 ^ s.cfg.regWidth) = c.payload[i]) ∧
      ∀ a, ¬ covered s.cfg wptr c.payload.length a → readByte m a = readByte s.mem a

/-- RX_FINISH (R252, R253): with room, the producer advance and ACK; if software has filled the
buffer meanwhile, E_BUFFER_FULL, no register written, and REJECT; in both cases Idle. The registers
it needs are `readable` (R55; log 3). -/
def Obligations.RxFinishStep : Prop :=
  ∀ (s : State) (k f : Nat) (rest : List Event) (c : RxCtx), s.cfg.valid = true →
    s.timeline = .run k :: rest → s.pending[k]? = some (.rxFinish f) →
    s.activity f = .receiving c →
    (∀ r ∈ [Field.bufferAddr, .bufferSize, .bufferMessageCount, .bufferWritePtr],
      s.readable f r = true) →
    ((s.reg f .bufferMessageCount).value < (s.reg f .bufferSize).value →
      step s = .next { s with
        timeline := rest
        pending := s.pending.eraseIdx k
        netInOut := s.netInOut ++ [⟨c.reply, .ack⟩]
        endpoints := s.endpoints.modify f fun p => { p with
          bufferWritePtr :=
            ⟨(if (s.reg f .bufferAddr).value + (s.reg f .bufferSize).value * s.cfg.slotSize ≤
                  (s.reg f .bufferWritePtr).value + s.cfg.slotSize
              then (s.reg f .bufferAddr).value
              else (s.reg f .bufferWritePtr).value + s.cfg.slotSize) % 2 ^ s.cfg.regWidth,
              true⟩
          bufferMessageCount :=
            ⟨((s.reg f .bufferMessageCount).value + 1) % 2 ^ s.cfg.regWidth, true⟩
          activity := .idle } }) ∧
    ((s.reg f .bufferSize).value ≤ (s.reg f .bufferMessageCount).value →
      step s = .next { s with
        timeline := rest
        pending := s.pending.eraseIdx k
        netInOut := s.netInOut ++ [⟨c.reply, .reject .bufferFull⟩]
        reports := s.reports ++ [⟨.rx, .bufferFull, f, 0⟩]
        endpoints := s.endpoints.modify f fun p => { p with activity := .idle } })

/-- The receive path never touches COMMAND, STATUS, the network-out port, or any endpoint but the
one addressed (R256). -/
def Obligations.ReceiveFrame : Prop :=
  ∀ (s t : State) (i : Instr) (f : Nat),
    ((∃ addr size data reply, i = .evRxMsg addr size data reply ∧ f = s.cfg.netEpOf addr) ∨
      (∃ addr reply, i = .evRxUnsupported addr reply ∧ f = s.cfg.netEpOf addr) ∨
      i = .evRxWriteDone f) →
    exec i s = .next t →
    t.cfg = s.cfg ∧ t.command = s.command ∧ t.status = s.status ∧ t.netOut = s.netOut ∧
    t.accessOut = s.accessOut ∧ t.netAnswers = s.netAnswers ∧
    (∀ x, x ≠ f → t.ep x = s.ep x) ∧
    ∀ g ∈ [Field.mode, .messageAddr, .messageSize, .targetCore, .targetEndpoint, .bufferAddr,
        .bufferSize, .bufferReadPtr], t.reg f g = s.reg f g

/-! ### All operations -/

/-- R34, R189: no operation writes MODE, MESSAGE_ADDR, MESSAGE_SIZE, TARGET_CORE, TARGET_ENDPOINT,
BUFFER_ADDR or BUFFER_SIZE; only INCREMENT_READ_POINTER writes a read pointer, and it writes no
write pointer; and no operation changes the configuration or the number of endpoints. -/
def Obligations.NeverWrittenRegisters : Prop :=
  ∀ (s t : State) (i : Instr), exec i s = .next t →
    t.cfg = s.cfg ∧ t.endpoints.length = s.endpoints.length ∧
    (∀ e, ∀ f ∈ [Field.mode, .messageAddr, .messageSize, .targetCore, .targetEndpoint,
        .bufferAddr, .bufferSize], t.reg e f = s.reg e f) ∧
    ((∀ e off, i ≠ .incrementReadPointer e off) →
      ∀ e, t.reg e .bufferReadPtr = s.reg e .bufferReadPtr) ∧
    (∀ e off, i = .incrementReadPointer e off →
      ∀ x, t.reg x .bufferWritePtr = s.reg x .bufferWritePtr)

/-- The operations that store nothing leave every byte of local memory as it was: the commands but
START_OPERATION, the acknowledgments, EV_RX_UNSUPPORTED and EV_RX_WRITE_DONE in both modes, and
every operation in timed mode (R71, R79). When the bytes of a store change is the model's (log
6). -/
def Obligations.NonStoringKeepMemory : Prop :=
  ∀ (s t : State) (i : Instr), exec i s = .next t →
    (s.cfg.atomicMode = false ∨
      match i with
      | .startOperation _ _ => False
      | .evTxReadDone _ _ => False
      | .evRxMsg _ _ _ _ => False
      | _ => True) →
    ∀ a, readByte t.mem a = readByte s.mem a

/-- The operations that may store, in atomic mode, store only the payload at the addressed
endpoint's write pointer: EV_RX_MSG, and EV_TX_READ_DONE and START_OPERATION of a message this unit
sends to itself (R71, R210, R250, R351). When the bytes change is the model's (log 6). -/
def Obligations.StoringFrame : Prop :=
  ∀ (s t : State), s.mem.wf →
    (∀ addr size data reply, exec (.evRxMsg addr size data reply) s = .next t →
      ∀ a, ¬ covered s.cfg (s.reg (s.cfg.netEpOf addr) .bufferWritePtr).value (size - 4) a →
        readByte t.mem a = readByte s.mem a) ∧
    (∀ e d x f, exec (.evTxReadDone e d) s = .next t → s.activity e = .transmitting x →
      f = s.cfg.netEpOf (s.cfg.encodeNetworkAddress x.targetCore x.targetEp) →
      ∀ a, ¬ covered s.cfg (s.reg f .bufferWritePtr).value x.length a →
        readByte t.mem a = readByte s.mem a) ∧
    (∀ e off f, exec (.startOperation e off) s = .next t →
      f = s.cfg.netEpOf (s.cfg.encodeNetworkAddress (s.reg e .targetCore).value
        (s.reg e .targetEndpoint).value) →
      ∀ a, ¬ covered s.cfg (s.reg f .bufferWritePtr).value (s.reg e .messageSize).value a →
        readByte t.mem a = readByte s.mem a)

/-- With R55 taken to the letter (`unwrittenFaults`, log 3), an operation or a timed continuation
that needs a never-written register faults and names it: START_OPERATION needs MODE, MESSAGE_SIZE
and the other captured registers, INCREMENT_READ_POINTER and RX_FINISH their four ring registers, an
arrival MODE, BUFFER_MESSAGE_COUNT and BUFFER_SIZE, RX_ISSUE_WRITE the write pointer (R55, R153,
R180, R201, R241, R250, R307). In atomic mode an arrival needs those of its chain too,
EV_RX_WRITE_DONE those of RX_FINISH, and START_OPERATION and EV_TX_READ_DONE of a message for the
unit's own core those of the receiving endpoint's chain, as far as the memory answers within the
step (R210, R351; log 26). Of several unwritten ones the first in the pseudocode's order is named
(log 23). -/
def Obligations.UnwrittenRegisterFaults : Prop :=
  ∀ (s : State) (e : Nat), s.cfg.unwrittenFaults = true → e < s.cfg.endpointCount →
    (∀ off, (s.reg e .mode).written = false →
      exec (.startOperation e off) s = .fault (.unwrittenRegister e .mode)) ∧
    (∀ off, (s.reg e .mode).written = true → (s.reg e .mode).value = 0 →
      s.activity e = .idle → (s.reg e .messageSize).written = false →
      exec (.startOperation e off) s = .fault (.unwrittenRegister e .messageSize)) ∧
    (∀ off, (s.reg e .mode).written = true → (s.reg e .mode).value = 0 →
      s.activity e = .idle → (s.reg e .messageSize).written = true →
      1 ≤ (s.reg e .messageSize).value →
      (s.reg e .messageSize).value + 4 ≤ s.cfg.maxMessageSize →
      (∀ r, s.firstUnwritten e [.messageAddr, .targetCore, .targetEndpoint] = some r →
        exec (.startOperation e off) s = .fault (.unwrittenRegister e r)) ∧
      (s.firstUnwritten e [.messageAddr, .targetCore, .targetEndpoint] = none →
        s.cfg.atomicMode = true → s.cfg.valid = true → s.shaped →
        ∀ naddr f r, naddr = s.cfg.encodeNetworkAddress (s.reg e .targetCore).value
          (s.reg e .targetEndpoint).value →
        s.cfg.netCoreOf naddr = s.cfg.coreId → f = s.cfg.netEpOf naddr →
        f < s.cfg.endpointCount → s.arrivalUnwritten f = some r →
        ∀ d ms, memGives s.memAnswers (readBytes s.cfg s.mem (s.reg e .messageAddr).value
          (s.reg e .messageSize).value) d ms → d.length = (s.reg e .messageSize).value →
        (r = .bufferAddr → ∃ ms2, memGives ms [] [] ms2) →
        exec (.startOperation e off) s = .fault (.unwrittenRegister f r))) ∧
    (∀ off r,
      s.firstUnwritten e [.bufferAddr, .bufferSize, .bufferMessageCount, .bufferReadPtr] = some r →
      exec (.incrementReadPointer e off) s = .fault (.unwrittenRegister e r)) ∧
    (∀ addr data reply, s.cfg.netEpOf addr = e → (s.reg e .mode).written = false →
      exec (.evRxMsg addr data.length data reply) s = .fault (.unwrittenRegister e .mode)) ∧
    (∀ addr (sc se lo hi : Byte) payload reply n r, s.shaped → s.cfg.netEpOf addr = e →
      n = lo.toNat + 256 * hi.toNat → n = payload.length → 0 < n →
      4 + n ≤ s.cfg.maxMessageSize → s.arrivalUnwritten e = some r →
      (r = .bufferAddr → ∃ ms, memGives s.memAnswers [] [] ms) →
      exec (.evRxMsg addr (4 + n) (sc :: se :: lo :: hi :: payload) reply) s =
        .fault (.unwrittenRegister e r)) ∧
    (∀ g d x naddr f r, s.cfg.atomicMode = true → s.cfg.valid = true → s.shaped →
      g ∈ s.outstanding → g.hasTag .mem .localTag e = true → s.activity e = .transmitting x →
      d.length = x.length → 1 ≤ x.length → x.length + 4 ≤ s.cfg.maxMessageSize →
      naddr = s.cfg.encodeNetworkAddress x.targetCore x.targetEp →
      s.cfg.netCoreOf naddr = s.cfg.coreId → f = s.cfg.netEpOf naddr →
      f < s.cfg.endpointCount → s.arrivalUnwritten f = some r →
      (r = .bufferAddr → ∃ ms, memGives s.memAnswers [] [] ms) →
      exec (.evTxReadDone e d) s = .fault (.unwrittenRegister f r)) ∧
    (∀ c r, s.activity e = .receiving c →
      s.firstUnwritten e [.bufferAddr, .bufferSize, .bufferMessageCount, .bufferWritePtr] =
        some r →
      (∀ g, s.cfg.atomicMode = true → g ∈ s.outstanding →
        g.hasTag .mem .forwardedTag e = true →
        exec (.evRxWriteDone e) s = .fault (.unwrittenRegister e r)) ∧
      ∀ k rest, s.cfg.valid = true → s.timeline = .run k :: rest →
        s.pending[k]? = some (.rxFinish e) → step s = .fault (.unwrittenRegister e r)) ∧
    (∀ c k rest, s.cfg.valid = true → s.timeline = .run k :: rest →
      s.activity e = .receiving c → s.pending[k]? = some (.rxIssueWrite e) →
      (s.reg e .bufferWritePtr).written = false →
      step s = .fault (.unwrittenRegister e .bufferWritePtr))

/-! ### Invariants of a step -/

/-- Every step keeps local memory in canonical form, within the address space (R70, R76). The
canonical form is the model's (log 5). -/
def Obligations.MemoryFormKept : Prop :=
  ∀ s t : State, s.memOk → step s = .next t → t.memOk

/-- Every step keeps every register within REG_WIDTH bits (R31). Registers as natural numbers are
the model's (log 1). -/
def Obligations.RegisterWidthKept : Prop :=
  ∀ s t : State, s.regsFit → step s = .next t → t.regsFit

/-- Every step keeps the configuration and the set of endpoints, and in atomic mode leaves nothing
pending (R9, R30, R44). -/
def Obligations.ShapeAndQuietKept : Prop :=
  ∀ s t : State, step s = .next t → t.cfg = s.cfg ∧
    (s.shaped → t.shaped) ∧ (s.atomicQuiet → t.atomicQuiet)

/-- Every step keeps each endpoint carried on by exactly the one continuation or transaction its
operation state goes with (R38, R40, R41, R306). How a transaction is tracked is the model's (log
24). -/
def Obligations.TrackingKept : Prop :=
  ∀ s t : State, s.shaped → s.tracked → step s = .next t → t.tracked

/-- From a state of the invariant no step reports E_SPURIOUS_COMPLETION (R306). -/
def Obligations.SpuriousCompletionUnreachable : Prop :=
  ∀ s t : State, s.shaped → s.tracked → step s = .next t →
    ∃ new, t.reports = s.reports ++ new ∧ ∀ r ∈ new, r.code ≠ .spuriousCompletion

/-- Reports are only ever appended, at most two in one step, and none carries a detail but those
R302 names (R302, R308). -/
def Obligations.ReportsOnlyAppended : Prop :=
  ∀ s t : State, step s = .next t →
    ∃ new, t.reports = s.reports ++ new ∧ new.length ≤ 2 ∧
      ∀ r ∈ new, r.code ≠ .invalidOpcode → r.code ≠ .remoteRejected → r.detail = 0

/-- Faults come only from the fabrics: from a state of the invariant, with the reset values readable
(log 3), a step that is no response and no arrival never faults, the memory answering from its bytes
or not at all (R303, R307). That memory can answer from its bytes, by memServe (log 7) and in atomic
mode (log 26), is the model's. -/
def Obligations.FaultsComeFromFabric : Prop :=
  ∀ s : State, s.shaped → s.tracked → s.cfg.unwrittenFaults = false →
    (∀ ev rest, s.timeline = ev :: rest → ev.fromFabric = false) →
    (∀ d failed, .response d failed ∉ s.memAnswers) → NoFault (step s)

/-! ### The two modes -/

/-- A transmit to another core, run alone, ends alike in both modes: seven steps of timed mode and
the one step of atomic mode leave the same registers, operation states, memory, reports and port
outputs (R350, R354, W5). A target of the unit's own core is left out. Where the environment's
answers come from is the model's (log 7, log 9, log 26). The registers it needs are `readable` (R55;
log 3). -/
def Obligations.TransmitModesAgree : Prop :=
  ∀ (s : State) (e off : Nat) (w : Nat) (st : NetStatus), s.cfg.valid = true → s.shaped →
    s.cfg.atomicMode = false → s.pending = [] →
    decodeCommand s.cfg (w % 2 ^ s.cfg.regWidth) = .startOperation e off →
    e < s.cfg.endpointCount →
    (∀ f ∈ [Field.mode, .messageAddr, .messageSize, .targetCore, .targetEndpoint],
      s.readable e f = true) →
    (s.reg e .mode).value = 0 → s.activity e = .idle →
    1 ≤ (s.reg e .messageSize).value →
    (s.reg e .messageSize).value + 4 ≤ s.cfg.maxMessageSize →
    (∀ t ∈ s.outstanding, t.ep ≠ e) →
    s.cfg.netCoreOf (s.cfg.encodeNetworkAddress (s.reg e .targetCore).value
      (s.reg e .targetEndpoint).value) ≠ s.cfg.coreId →
    ∃ t u,
      runSteps 7 { s with timeline := [.regWrite .command w, .run 0, .run 0,
        .memServe .localTag e, .run 0, .netResp ⟨.localTag, e, st⟩, .run 0] } = .next t ∧
      step { s with
        cfg := { s.cfg with atomicMode := true }
        timeline := [.regWrite .command w]
        memAnswers := []
        netAnswers := [st] } = .next u ∧
      t.command = u.command ∧ t.status = u.status ∧ t.endpoints = u.endpoints ∧
      t.outstanding = u.outstanding ∧ t.pending = u.pending ∧ t.mem = u.mem ∧
      t.memOut = u.memOut ∧ t.netOut = u.netOut ∧ t.netInOut = u.netInOut ∧
      t.reports = u.reports ∧ t.accessOut = u.accessOut

/-- An arriving message, run alone, ends alike in both modes, whether it is accepted or rejected:
four steps of timed mode and the one step of atomic mode leave the same state (R254, R350, R354).
That the memory answers from its bytes, in timed mode by the event of log 7 and in atomic mode
within the step (log 26), and that after a rejection the events that find nothing are idle steps
(log 20), is the model's. The registers it needs are `readable` (R55; log 3). -/
def Obligations.ReceiveModesAgree : Prop :=
  ∀ (s : State) (x : NetIn) (f : Nat), s.cfg.valid = true → s.shaped →
    s.cfg.atomicMode = false → s.pending = [] → f = s.cfg.netEpOf x.addr →
    x.kind = .write → x.data.length = x.size →
    (∀ r ∈ [Field.mode, .bufferAddr, .bufferSize, .bufferMessageCount, .bufferWritePtr],
      s.readable f r = true) →
    (∀ t ∈ s.outstanding, t.ep ≠ f) →
    ∃ t u,
      runSteps 4 { s with timeline := [.netIn x, .run 0, .memServe .forwardedTag f, .run 0] } =
        .next t ∧
      step { s with
        cfg := { s.cfg with atomicMode := true }
        timeline := [.netIn x]
        memAnswers := [] } = .next u ∧
      t.command = u.command ∧ t.status = u.status ∧ t.endpoints = u.endpoints ∧
      t.outstanding = u.outstanding ∧ t.pending = u.pending ∧ t.mem = u.mem ∧
      t.memOut = u.memOut ∧ t.netOut = u.netOut ∧ t.netInOut = u.netInOut ∧
      t.reports = u.reports ∧ t.accessOut = u.accessOut

/-! ### Several units -/

/-- The network delivers a request addressed to core and endpoint to the one unit of that core, and
brings an answer to the unit and tag it is for (R110, R317, R346). From a unit's step it takes over
the request that is in flight, unless the unit has delivered it to itself; and it turns a receiver's
response into an answer for the originator that waits for it (D44). The turn of an atomic unit ends
with its request delivered to an atomic peer and the peer's answer brought back (R254, R351), or,
for an absent core, with the request unanswered (R209, U8). The layer of units is the model's (log
19; a timed peer of an atomic unit, log 13, is left out), and so are the numbers that name
deliveries (log 18), an own message answered later (log 26), the units' one address layout (log
27), and that a fault or refusal of the unit's step is the outcome of the whole turn (log 29). -/
def Obligations.NetworkFindsUnit : Prop :=
  ∀ (y : System) (k : Nat) (s : State), y.units[k]? = some s →
    (∀ core ep, y.valid = true → s.cfg.coreId = core →
      core < 2 ^ (s.cfg.regWidth - s.cfg.netEpBits) → ep < 2 ^ s.cfg.netEpBits →
      unitOf y (s.cfg.encodeNetworkAddress core ep) = some k ∧
      ∀ j x, y.flights[j]? = some x → x.req.addr = s.cfg.encodeNetworkAddress core ep →
        deliver j y =
          andThen (step { s with
              timeline :=
                .netIn ⟨x.req.addr, x.req.size, .write, x.req.data, .network x.number⟩ ::
                  s.timeline })
            fun t => .next (collect k s t
              { y with
                flights := y.flights.eraseIdx j
                waiting := y.waiting ++ [⟨k, x.number, x.origin, x.req.ep⟩] })) ∧
    (∀ j x, y.answers[j]? = some x → x.origin = k →
      answer j y =
        andThen (step { s with timeline := .netResp ⟨.localTag, x.ep, x.status⟩ :: s.timeline })
          fun t => .next (collect k s t { y with answers := y.answers.eraseIdx j })) ∧
    (∀ t r, t.netInOut = s.netInOut → t.netOut = s.netOut ++ [r] →
      collect k s t y =
        if (∃ g ∈ t.outstanding, g.hasTag .net r.disc r.ep = true) ∧
            ¬(t.cfg.atomicMode = true ∧ t.cfg.netCoreOf r.addr = t.cfg.coreId)
        then { y with
          units := y.units.set k t
          flights := y.flights ++ [⟨k, y.nextNumber, r⟩]
          nextNumber := y.nextNumber + 1 }
        else { y with units := y.units.set k t }) ∧
    (∀ t st, t.netOut = s.netOut →
      (∀ n w, t.netInOut = s.netInOut ++ [⟨.network n, st⟩] → w ∈ y.waiting → w.receiver = k →
        w.number = n → (∀ z ∈ y.waiting, z.receiver = k → z.number = n → z = w) →
        collect k s t y = { y with
          units := y.units.set k t
          waiting := y.waiting.filter fun z => !decide (z.receiver = k ∧ z.number = n)
          answers := y.answers ++ [⟨w.origin, w.ep, st⟩] }) ∧
      ∀ e, t.netInOut = s.netInOut ++ [⟨.own e, st⟩] →
        collect k s t y =
          if ∃ g ∈ t.outstanding, g.hasTag .net .localTag e = true
          then { y with
            units := y.units.set k t
            answers := y.answers ++ [⟨k, e, st⟩] }
          else { y with units := y.units.set k t }) ∧
    ∀ t r, s.cfg.atomicMode = true → step s = .next t → t.cfg = s.cfg →
      t.netInOut = s.netInOut → t.netOut = s.netOut ++ [r] →
      (∃ g ∈ t.outstanding, g.hasTag .net r.disc r.ep = true) →
      s.cfg.netCoreOf r.addr ≠ s.cfg.coreId → (∀ w ∈ y.waiting, w.number < y.nextNumber) →
      (∀ m p q st u, unitOf y r.addr = some m → y.units[m]? = some p → m ≠ k →
        step { p with
          timeline :=
            .netIn ⟨r.addr, r.size, .write, r.data, .network y.nextNumber⟩ :: p.timeline } =
          .next q →
        q.netOut = p.netOut → q.netInOut = p.netInOut ++ [⟨.network y.nextNumber, st⟩] →
        step { t with timeline := .netResp ⟨.localTag, r.ep, st⟩ :: t.timeline } = .next u →
        u.netOut = t.netOut → u.netInOut = t.netInOut →
        systemStep (.unit k) y = .next { y with
          units := (y.units.set m q).set k u
          nextNumber := y.nextNumber + 1 }) ∧
      (unitOf y r.addr = none →
        systemStep (.unit k) y = .next { y with
          units := y.units.set k t
          flights := y.flights ++ [⟨k, y.nextNumber, r⟩]
          nextNumber := y.nextNumber + 1 })
end

