-- ==== Sys2Proof/Laws/Config.lean ====
section
/-!
SUPPORT. What a valid configuration satisfies (R10, D36), in arithmetic.
-/

namespace Sys2Proof

/-- The constraints of construction, one by one. -/
theorem Config.valid_iff (c : Config) : c.valid = true ↔
    c.opcodeWidth + c.epWidth + c.offsetWidth ≤ c.regWidth ∧ 1 ≤ c.endpointCount ∧
    c.endpointCount ≤ 256 ∧ c.endpointCount ≤ 2 ^ c.netEpBits ∧ 5 ≤ c.maxMessageSize ∧
    c.maxMessageSize ≤ 65539 ∧ c.maxMessageSize - 4 ≤ c.slotSize ∧ c.coreId ≤ 255 ∧
    1 ≤ c.netEpBits ∧ c.netEpBits < c.regWidth := by
  unfold Config.valid Config.headerSize
  simp only [Bool.and_eq_true, decide_eq_true_eq]
  omega

/-- A field of a word fits its width (R16). -/
theorem bitField_lt (v lo width : Nat) : bitField v lo width < 2 ^ width :=
  Nat.mod_lt _ (Nat.two_pow_pos _)

/-- A valid configuration's registers hold the busy indicator (R33). -/
theorem Config.one_mod_two_pow_regWidth {c : Config} (h : c.valid = true) :
    1 % 2 ^ c.regWidth = 1 := by
  have hw : 1 ≤ c.regWidth := by
    have := (Config.valid_iff c).1 h
    omega
  have := Nat.pow_le_pow_right (show 0 < 2 by decide) hw
  exact Nat.mod_eq_of_lt (by omega)

end Sys2Proof
end

