-- ==== Sys2Proof/Laws/Memory.lean ====
section
/-!
SUPPORT. Local memory: every write keeps the canonical form, a read after a write gives the byte
written, and a write leaves every other byte alone.
-/

namespace Sys2Proof.Machine

/-- Every address a memory lists is above `a`. -/
abbrev Memory.above (a : Nat) (m : Memory) : Prop := ∀ x ∈ m, a < x.1

@[simp] theorem Memory.wf_nil : Memory.wf [] := ⟨List.Pairwise.nil, by simp⟩

/-- The canonical form, one entry at a time. -/
theorem Memory.wf_cons {x : Host.Cell} {m : Memory} :
    Memory.wf (x :: m) ↔ Memory.above x.1 m ∧ x.2 ≠ Memory.unlisted ∧ Memory.wf m := by
  simp only [Memory.wf, List.pairwise_cons, List.forall_mem_cons]
  tauto

/-- Memory after reset is in canonical form. -/
theorem Memory.wf_reset : Memory.wf State.reset.mem := Memory.wf_nil

/-- An address below every listed one reads as unlisted. -/
theorem readByte_of_above {a : Nat} {m : Memory} (h : Memory.above a m) :
    readByte m a = Memory.unlisted := by
  induction m with
  | nil => rfl
  | cons x rest ih =>
    have hx : a < x.1 := h x (by simp)
    simp only [readByte, if_neg (Nat.ne_of_gt hx)]
    exact ih fun y hy => h y (by simp [hy])

theorem consByte_wf {a : Nat} {b : Byte} {m : Memory} (h : Memory.above a m) (hm : m.wf) :
    (consByte a b m).wf := by
  unfold consByte
  split
  · exact hm
  · next hb => exact Memory.wf_cons.2 ⟨h, hb, hm⟩

theorem mem_consByte {a : Nat} {b : Byte} {m : Memory} {x : Host.Cell}
    (h : x ∈ consByte a b m) : x = (a, b) ∨ x ∈ m := by
  unfold consByte at h
  split at h
  · exact .inr h
  · simpa using h

/-- What a write can list: the byte written, or what was listed before. -/
theorem mem_writeByte {m : Memory} {a : Nat} {b : Byte} {x : Host.Cell}
    (h : x ∈ writeByte m a b) : x = (a, b) ∨ x ∈ m := by
  induction m with
  | nil => exact mem_consByte h
  | cons y rest ih =>
    simp only [writeByte] at h
    split at h
    · exact mem_consByte h
    · split at h
      · exact (mem_consByte h).imp_right (List.mem_cons_of_mem y)
      · rcases List.mem_cons.1 h with rfl | h
        · simp
        · exact (ih h).imp_right (List.mem_cons_of_mem y)

/-- A write of one byte keeps the canonical form. -/
theorem writeByte_wf {m : Memory} (a : Nat) (b : Byte) (hm : m.wf) : (writeByte m a b).wf := by
  induction m with
  | nil => exact consByte_wf (by simp) hm
  | cons y rest ih =>
    obtain ⟨hy, hb, hr⟩ := Memory.wf_cons.1 hm
    simp only [writeByte]
    split
    · next h =>
      refine consByte_wf (fun x hx => ?_) hm
      rcases List.mem_cons.1 hx with rfl | hx
      · exact h
      · exact h.trans (hy x hx)
    · split
      · next h => exact consByte_wf (h ▸ hy) hr
      · next h1 h2 =>
        refine Memory.wf_cons.2 ⟨fun x hx => ?_, hb, ih hr⟩
        rcases mem_writeByte hx with rfl | hx
        · exact Nat.lt_of_le_of_ne (Nat.le_of_not_lt h1) (Ne.symm h2)
        · exact hy x hx

theorem readByte_consByte {a x : Nat} {b : Byte} {m : Memory} (h : Memory.above a m) :
    readByte (consByte a b m) x = if x = a then b else readByte m x := by
  unfold consByte
  by_cases hb : b = Memory.unlisted
  · rw [if_pos hb]
    split
    · next hx => rw [hx, readByte_of_above h, hb]
    · rfl
  · rw [if_neg hb, readByte]
    by_cases hx : a = x
    · simp [hx]
    · rw [if_neg hx, if_neg (Ne.symm hx)]

/-- Reading after a write of one byte. -/
theorem readByte_writeByte {m : Memory} (a x : Nat) (b : Byte) (hm : m.wf) :
    readByte (writeByte m a b) x = if x = a then b else readByte m x := by
  induction m with
  | nil => exact readByte_consByte (by simp)
  | cons y rest ih =>
    obtain ⟨hy, -, hr⟩ := Memory.wf_cons.1 hm
    simp only [writeByte]
    split
    · next h =>
      refine readByte_consByte fun z hz => ?_
      rcases List.mem_cons.1 hz with rfl | hz
      · exact h
      · exact h.trans (hy z hz)
    · split
      · next h =>
        rw [readByte_consByte (h ▸ hy), readByte]
        by_cases hx : x = a
        · rw [if_pos hx, if_pos hx]
        · rw [if_neg hx, if_neg hx, if_neg]
          rintro rfl
          exact hx h.symm
      · next h2 =>
        rw [readByte, ih hr, readByte]
        by_cases hx : y.1 = x
        · rw [if_pos hx, if_pos hx, if_neg]
          rintro rfl
          exact h2 hx.symm
        · rw [if_neg hx, if_neg hx]

/-- A write of bytes keeps the canonical form. -/
theorem writeBytes_wf (c : Config) {m : Memory} (a : Nat) (bs : Bytes) (hm : m.wf) :
    (writeBytes c m a bs).wf := by
  induction bs generalizing m a with
  | nil => exact hm
  | cons b bs ih => exact ih (a + 1) (writeByte_wf _ b hm)

/-- What a write of bytes can list: addresses of the address space, or what was listed before. -/
theorem mem_writeBytes (c : Config) {m : Memory} {a : Nat} {bs : Bytes} {x : Host.Cell}
    (h : x ∈ writeBytes c m a bs) : x.1 < 2 ^ c.regWidth ∨ x ∈ m := by
  induction bs generalizing m a with
  | nil => exact .inr h
  | cons b bs ih =>
    rcases ih h with h | h
    · exact .inl h
    · rcases mem_writeByte h with rfl | h
      · exact .inl (Nat.mod_lt _ (Nat.two_pow_pos _))
      · exact .inr h

theorem byteAddr_succ (c : Config) (a : Nat) (i : Nat) :
    byteAddr c (a + 1) i = byteAddr c a (i + 1) := by
  unfold byteAddr
  rw [Nat.add_assoc, Nat.add_comm 1 i]

/-- A write of bytes leaves every byte outside them alone. -/
theorem readByte_writeBytes_of_ne (c : Config) {m : Memory} {a x : Nat} {bs : Bytes}
    (hm : m.wf) (hx : ∀ i, i < bs.length → x ≠ byteAddr c a i) :
    readByte (writeBytes c m a bs) x = readByte m x := by
  induction bs generalizing m a with
  | nil => rfl
  | cons b bs ih =>
    rw [writeBytes, ih (writeByte_wf _ b hm), readByte_writeByte _ _ _ hm,
      if_neg (hx 0 (by simp))]
    intro i hi
    rw [byteAddr_succ]
    exact hx (i + 1) (by simpa using hi)

/-- A read of the bytes just written gives them back, when they do not wrap onto themselves. -/
theorem readByte_writeBytes (c : Config) {m : Memory} {a : Nat} {bs : Bytes} (hm : m.wf)
    (hl : bs.length ≤ 2 ^ c.regWidth) {i : Nat} (hi : i < bs.length) :
    readByte (writeBytes c m a bs) (byteAddr c a i) = bs[i] := by
  induction bs generalizing m a i with
  | nil => simp at hi
  | cons b bs ih =>
    rw [List.length_cons] at hl hi
    cases i with
    | zero =>
      rw [writeBytes, readByte_writeBytes_of_ne c (writeByte_wf _ b hm),
        readByte_writeByte _ _ _ hm, if_pos rfl]
      · rfl
      · intro j hj h
        rw [byteAddr_succ] at h
        unfold byteAddr at h
        have h0 : (a + 0) ≡ (a + (j + 1)) [MOD 2 ^ c.regWidth] := h
        have h1 := (Nat.ModEq.add_left_cancel' a h0)
        have h2 := Nat.ModEq.eq_of_lt_of_lt h1 (Nat.two_pow_pos _) (by omega)
        omega
    | succ i =>
      rw [writeBytes, ← byteAddr_succ, ih (writeByte_wf _ b hm) (by omega) (by omega)]
      simp

end Sys2Proof.Machine
end

