-- ==== Sys2Proof/Laws/State.lean ====
section
/-!
SUPPORT. For each named update of the state, what it leaves in each field; and what reading an
endpoint, a register or an operation state gives after an update.
-/

namespace Sys2Proof.Machine

variable (s : State)

/-! ### One element of a list -/

/-- Two changes of one element are one. -/
theorem modify_modify {α : Type} (l : List α) (i : Nat) (f g : α → α) :
    (l.modify i f).modify i g = l.modify i (g ∘ f) := by
  apply List.ext_getElem?
  intro j
  simp only [List.getElem?_modify]
  by_cases h : i = j <;> simp [h, Function.comp_def]

/-- A change is determined by what it does to the element there is. -/
theorem modify_congr {α : Type} (l : List α) (i : Nat) (f g : α → α)
    (h : ∀ x, l[i]? = some x → f x = g x) : l.modify i f = l.modify i g := by
  apply List.ext_getElem?
  intro j
  simp only [List.getElem?_modify]
  by_cases hij : i = j
  · subst hij
    cases hx : l[i]? with
    | none => simp
    | some x => simp [h x hx]
  · simp [hij]

/-- A change that leaves the element there is alone is no change. -/
theorem modify_eq_self {α : Type} (l : List α) (i : Nat) (f : α → α)
    (h : ∀ x, l[i]? = some x → f x = x) : l.modify i f = l :=
  (modify_congr l i f id h).trans (List.modify_id i l)

/-! ### writeMem -/

@[simp] theorem State.writeMem_cfg (a : Nat) (bs : Bytes) : (s.writeMem a bs).cfg = s.cfg := rfl
@[simp] theorem State.writeMem_command (a : Nat) (bs : Bytes) :
    (s.writeMem a bs).command = s.command := rfl
@[simp] theorem State.writeMem_status (a : Nat) (bs : Bytes) :
    (s.writeMem a bs).status = s.status := rfl
@[simp] theorem State.writeMem_endpoints (a : Nat) (bs : Bytes) :
    (s.writeMem a bs).endpoints = s.endpoints := rfl
@[simp] theorem State.writeMem_outstanding (a : Nat) (bs : Bytes) :
    (s.writeMem a bs).outstanding = s.outstanding := rfl
@[simp] theorem State.writeMem_pending (a : Nat) (bs : Bytes) :
    (s.writeMem a bs).pending = s.pending := rfl
@[simp] theorem State.writeMem_mem (a : Nat) (bs : Bytes) :
    (s.writeMem a bs).mem = writeBytes s.cfg s.mem a bs := rfl
@[simp] theorem State.writeMem_memOut (a : Nat) (bs : Bytes) :
    (s.writeMem a bs).memOut = s.memOut := rfl
@[simp] theorem State.writeMem_netOut (a : Nat) (bs : Bytes) :
    (s.writeMem a bs).netOut = s.netOut := rfl
@[simp] theorem State.writeMem_netInOut (a : Nat) (bs : Bytes) :
    (s.writeMem a bs).netInOut = s.netInOut := rfl
@[simp] theorem State.writeMem_reports (a : Nat) (bs : Bytes) :
    (s.writeMem a bs).reports = s.reports := rfl
@[simp] theorem State.writeMem_accessOut (a : Nat) (bs : Bytes) :
    (s.writeMem a bs).accessOut = s.accessOut := rfl
@[simp] theorem State.writeMem_timeline (a : Nat) (bs : Bytes) :
    (s.writeMem a bs).timeline = s.timeline := rfl
@[simp] theorem State.writeMem_netAnswers (a : Nat) (bs : Bytes) :
    (s.writeMem a bs).netAnswers = s.netAnswers := rfl
@[simp] theorem State.writeMem_memAnswers (a : Nat) (bs : Bytes) :
    (s.writeMem a bs).memAnswers = s.memAnswers := rfl
@[simp] theorem State.writeMem_freeCount (a : Nat) (bs : Bytes) :
    (s.writeMem a bs).freeCount = s.freeCount := rfl

/-! ### modifyEp -/

@[simp] theorem State.modifyEp_cfg (e : Nat) (g : Endpoint → Endpoint) :
    (s.modifyEp e g).cfg = s.cfg := rfl
@[simp] theorem State.modifyEp_command (e : Nat) (g : Endpoint → Endpoint) :
    (s.modifyEp e g).command = s.command := rfl
@[simp] theorem State.modifyEp_status (e : Nat) (g : Endpoint → Endpoint) :
    (s.modifyEp e g).status = s.status := rfl
@[simp] theorem State.modifyEp_endpoints (e : Nat) (g : Endpoint → Endpoint) :
    (s.modifyEp e g).endpoints = s.endpoints.modify e g := rfl
@[simp] theorem State.modifyEp_outstanding (e : Nat) (g : Endpoint → Endpoint) :
    (s.modifyEp e g).outstanding = s.outstanding := rfl
@[simp] theorem State.modifyEp_pending (e : Nat) (g : Endpoint → Endpoint) :
    (s.modifyEp e g).pending = s.pending := rfl
@[simp] theorem State.modifyEp_mem (e : Nat) (g : Endpoint → Endpoint) :
    (s.modifyEp e g).mem = s.mem := rfl
@[simp] theorem State.modifyEp_memOut (e : Nat) (g : Endpoint → Endpoint) :
    (s.modifyEp e g).memOut = s.memOut := rfl
@[simp] theorem State.modifyEp_netOut (e : Nat) (g : Endpoint → Endpoint) :
    (s.modifyEp e g).netOut = s.netOut := rfl
@[simp] theorem State.modifyEp_netInOut (e : Nat) (g : Endpoint → Endpoint) :
    (s.modifyEp e g).netInOut = s.netInOut := rfl
@[simp] theorem State.modifyEp_reports (e : Nat) (g : Endpoint → Endpoint) :
    (s.modifyEp e g).reports = s.reports := rfl
@[simp] theorem State.modifyEp_accessOut (e : Nat) (g : Endpoint → Endpoint) :
    (s.modifyEp e g).accessOut = s.accessOut := rfl
@[simp] theorem State.modifyEp_timeline (e : Nat) (g : Endpoint → Endpoint) :
    (s.modifyEp e g).timeline = s.timeline := rfl
@[simp] theorem State.modifyEp_netAnswers (e : Nat) (g : Endpoint → Endpoint) :
    (s.modifyEp e g).netAnswers = s.netAnswers := rfl
@[simp] theorem State.modifyEp_memAnswers (e : Nat) (g : Endpoint → Endpoint) :
    (s.modifyEp e g).memAnswers = s.memAnswers := rfl
@[simp] theorem State.modifyEp_freeCount (e : Nat) (g : Endpoint → Endpoint) :
    (s.modifyEp e g).freeCount = s.freeCount := rfl

/-! ### setReg -/

@[simp] theorem State.setReg_cfg (e : Nat) (f : Field) (v : Nat) :
    (s.setReg e f v).cfg = s.cfg := rfl
@[simp] theorem State.setReg_command (e : Nat) (f : Field) (v : Nat) :
    (s.setReg e f v).command = s.command := rfl
@[simp] theorem State.setReg_status (e : Nat) (f : Field) (v : Nat) :
    (s.setReg e f v).status = s.status := rfl
@[simp] theorem State.setReg_endpoints (e : Nat) (f : Field) (v : Nat) :
    (s.setReg e f v).endpoints = s.endpoints.modify e fun p => p.set f ⟨fitWord s.cfg v, true⟩ :=
  rfl
@[simp] theorem State.setReg_outstanding (e : Nat) (f : Field) (v : Nat) :
    (s.setReg e f v).outstanding = s.outstanding := rfl
@[simp] theorem State.setReg_pending (e : Nat) (f : Field) (v : Nat) :
    (s.setReg e f v).pending = s.pending := rfl
@[simp] theorem State.setReg_mem (e : Nat) (f : Field) (v : Nat) :
    (s.setReg e f v).mem = s.mem := rfl
@[simp] theorem State.setReg_memOut (e : Nat) (f : Field) (v : Nat) :
    (s.setReg e f v).memOut = s.memOut := rfl
@[simp] theorem State.setReg_netOut (e : Nat) (f : Field) (v : Nat) :
    (s.setReg e f v).netOut = s.netOut := rfl
@[simp] theorem State.setReg_netInOut (e : Nat) (f : Field) (v : Nat) :
    (s.setReg e f v).netInOut = s.netInOut := rfl
@[simp] theorem State.setReg_reports (e : Nat) (f : Field) (v : Nat) :
    (s.setReg e f v).reports = s.reports := rfl
@[simp] theorem State.setReg_accessOut (e : Nat) (f : Field) (v : Nat) :
    (s.setReg e f v).accessOut = s.accessOut := rfl
@[simp] theorem State.setReg_timeline (e : Nat) (f : Field) (v : Nat) :
    (s.setReg e f v).timeline = s.timeline := rfl
@[simp] theorem State.setReg_netAnswers (e : Nat) (f : Field) (v : Nat) :
    (s.setReg e f v).netAnswers = s.netAnswers := rfl
@[simp] theorem State.setReg_memAnswers (e : Nat) (f : Field) (v : Nat) :
    (s.setReg e f v).memAnswers = s.memAnswers := rfl
@[simp] theorem State.setReg_freeCount (e : Nat) (f : Field) (v : Nat) :
    (s.setReg e f v).freeCount = s.freeCount := rfl

/-! ### setActivity -/

@[simp] theorem State.setActivity_cfg (e : Nat) (a : Activity) :
    (s.setActivity e a).cfg = s.cfg := rfl
@[simp] theorem State.setActivity_command (e : Nat) (a : Activity) :
    (s.setActivity e a).command = s.command := rfl
@[simp] theorem State.setActivity_status (e : Nat) (a : Activity) :
    (s.setActivity e a).status = s.status := rfl
@[simp] theorem State.setActivity_endpoints (e : Nat) (a : Activity) :
    (s.setActivity e a).endpoints = s.endpoints.modify e fun p => { p with activity := a } := rfl
@[simp] theorem State.setActivity_outstanding (e : Nat) (a : Activity) :
    (s.setActivity e a).outstanding = s.outstanding := rfl
@[simp] theorem State.setActivity_pending (e : Nat) (a : Activity) :
    (s.setActivity e a).pending = s.pending := rfl
@[simp] theorem State.setActivity_mem (e : Nat) (a : Activity) :
    (s.setActivity e a).mem = s.mem := rfl
@[simp] theorem State.setActivity_memOut (e : Nat) (a : Activity) :
    (s.setActivity e a).memOut = s.memOut := rfl
@[simp] theorem State.setActivity_netOut (e : Nat) (a : Activity) :
    (s.setActivity e a).netOut = s.netOut := rfl
@[simp] theorem State.setActivity_netInOut (e : Nat) (a : Activity) :
    (s.setActivity e a).netInOut = s.netInOut := rfl
@[simp] theorem State.setActivity_reports (e : Nat) (a : Activity) :
    (s.setActivity e a).reports = s.reports := rfl
@[simp] theorem State.setActivity_accessOut (e : Nat) (a : Activity) :
    (s.setActivity e a).accessOut = s.accessOut := rfl
@[simp] theorem State.setActivity_timeline (e : Nat) (a : Activity) :
    (s.setActivity e a).timeline = s.timeline := rfl
@[simp] theorem State.setActivity_netAnswers (e : Nat) (a : Activity) :
    (s.setActivity e a).netAnswers = s.netAnswers := rfl
@[simp] theorem State.setActivity_memAnswers (e : Nat) (a : Activity) :
    (s.setActivity e a).memAnswers = s.memAnswers := rfl
@[simp] theorem State.setActivity_freeCount (e : Nat) (a : Activity) :
    (s.setActivity e a).freeCount = s.freeCount := rfl

/-! ### setCommand -/

@[simp] theorem State.setCommand_cfg (v : Nat) : (s.setCommand v).cfg = s.cfg := rfl
@[simp] theorem State.setCommand_command (v : Nat) :
    (s.setCommand v).command = fitWord s.cfg v := rfl
@[simp] theorem State.setCommand_status (v : Nat) : (s.setCommand v).status = s.status := rfl
@[simp] theorem State.setCommand_endpoints (v : Nat) :
    (s.setCommand v).endpoints = s.endpoints := rfl
@[simp] theorem State.setCommand_outstanding (v : Nat) :
    (s.setCommand v).outstanding = s.outstanding := rfl
@[simp] theorem State.setCommand_pending (v : Nat) : (s.setCommand v).pending = s.pending := rfl
@[simp] theorem State.setCommand_mem (v : Nat) : (s.setCommand v).mem = s.mem := rfl
@[simp] theorem State.setCommand_memOut (v : Nat) : (s.setCommand v).memOut = s.memOut := rfl
@[simp] theorem State.setCommand_netOut (v : Nat) : (s.setCommand v).netOut = s.netOut := rfl
@[simp] theorem State.setCommand_netInOut (v : Nat) : (s.setCommand v).netInOut = s.netInOut := rfl
@[simp] theorem State.setCommand_reports (v : Nat) : (s.setCommand v).reports = s.reports := rfl
@[simp] theorem State.setCommand_accessOut (v : Nat) :
    (s.setCommand v).accessOut = s.accessOut := rfl
@[simp] theorem State.setCommand_timeline (v : Nat) : (s.setCommand v).timeline = s.timeline := rfl
@[simp] theorem State.setCommand_netAnswers (v : Nat) :
    (s.setCommand v).netAnswers = s.netAnswers := rfl
@[simp] theorem State.setCommand_memAnswers (v : Nat) :
    (s.setCommand v).memAnswers = s.memAnswers := rfl
@[simp] theorem State.setCommand_freeCount (v : Nat) :
    (s.setCommand v).freeCount = s.freeCount := rfl

/-! ### setStatus -/

@[simp] theorem State.setStatus_cfg (v : Nat) : (s.setStatus v).cfg = s.cfg := rfl
@[simp] theorem State.setStatus_command (v : Nat) : (s.setStatus v).command = s.command := rfl
@[simp] theorem State.setStatus_status (v : Nat) : (s.setStatus v).status = fitWord s.cfg v := rfl
@[simp] theorem State.setStatus_endpoints (v : Nat) :
    (s.setStatus v).endpoints = s.endpoints := rfl
@[simp] theorem State.setStatus_outstanding (v : Nat) :
    (s.setStatus v).outstanding = s.outstanding := rfl
@[simp] theorem State.setStatus_pending (v : Nat) : (s.setStatus v).pending = s.pending := rfl
@[simp] theorem State.setStatus_mem (v : Nat) : (s.setStatus v).mem = s.mem := rfl
@[simp] theorem State.setStatus_memOut (v : Nat) : (s.setStatus v).memOut = s.memOut := rfl
@[simp] theorem State.setStatus_netOut (v : Nat) : (s.setStatus v).netOut = s.netOut := rfl
@[simp] theorem State.setStatus_netInOut (v : Nat) : (s.setStatus v).netInOut = s.netInOut := rfl
@[simp] theorem State.setStatus_reports (v : Nat) : (s.setStatus v).reports = s.reports := rfl
@[simp] theorem State.setStatus_accessOut (v : Nat) :
    (s.setStatus v).accessOut = s.accessOut := rfl
@[simp] theorem State.setStatus_timeline (v : Nat) : (s.setStatus v).timeline = s.timeline := rfl
@[simp] theorem State.setStatus_netAnswers (v : Nat) :
    (s.setStatus v).netAnswers = s.netAnswers := rfl
@[simp] theorem State.setStatus_memAnswers (v : Nat) :
    (s.setStatus v).memAnswers = s.memAnswers := rfl
@[simp] theorem State.setStatus_freeCount (v : Nat) :
    (s.setStatus v).freeCount = s.freeCount := rfl

/-! ### raise -/

@[simp] theorem State.raise_cfg (o : Origin) (k : ErrCode) (e d : Nat) :
    (s.raise o k e d).cfg = s.cfg := rfl
@[simp] theorem State.raise_command (o : Origin) (k : ErrCode) (e d : Nat) :
    (s.raise o k e d).command = s.command := rfl
@[simp] theorem State.raise_status (o : Origin) (k : ErrCode) (e d : Nat) :
    (s.raise o k e d).status = s.status := rfl
@[simp] theorem State.raise_endpoints (o : Origin) (k : ErrCode) (e d : Nat) :
    (s.raise o k e d).endpoints = s.endpoints := rfl
@[simp] theorem State.raise_outstanding (o : Origin) (k : ErrCode) (e d : Nat) :
    (s.raise o k e d).outstanding = s.outstanding := rfl
@[simp] theorem State.raise_pending (o : Origin) (k : ErrCode) (e d : Nat) :
    (s.raise o k e d).pending = s.pending := rfl
@[simp] theorem State.raise_mem (o : Origin) (k : ErrCode) (e d : Nat) :
    (s.raise o k e d).mem = s.mem := rfl
@[simp] theorem State.raise_memOut (o : Origin) (k : ErrCode) (e d : Nat) :
    (s.raise o k e d).memOut = s.memOut := rfl
@[simp] theorem State.raise_netOut (o : Origin) (k : ErrCode) (e d : Nat) :
    (s.raise o k e d).netOut = s.netOut := rfl
@[simp] theorem State.raise_netInOut (o : Origin) (k : ErrCode) (e d : Nat) :
    (s.raise o k e d).netInOut = s.netInOut := rfl
@[simp] theorem State.raise_reports (o : Origin) (k : ErrCode) (e d : Nat) :
    (s.raise o k e d).reports = s.reports ++ [⟨o, k, e, d⟩] := rfl
@[simp] theorem State.raise_accessOut (o : Origin) (k : ErrCode) (e d : Nat) :
    (s.raise o k e d).accessOut = s.accessOut := rfl
@[simp] theorem State.raise_timeline (o : Origin) (k : ErrCode) (e d : Nat) :
    (s.raise o k e d).timeline = s.timeline := rfl
@[simp] theorem State.raise_netAnswers (o : Origin) (k : ErrCode) (e d : Nat) :
    (s.raise o k e d).netAnswers = s.netAnswers := rfl
@[simp] theorem State.raise_memAnswers (o : Origin) (k : ErrCode) (e d : Nat) :
    (s.raise o k e d).memAnswers = s.memAnswers := rfl
@[simp] theorem State.raise_freeCount (o : Origin) (k : ErrCode) (e d : Nat) :
    (s.raise o k e d).freeCount = s.freeCount := rfl

/-! ### respondNet -/

@[simp] theorem State.respondNet_cfg (r : Reply) (st : NetStatus) :
    (s.respondNet r st).cfg = s.cfg := rfl
@[simp] theorem State.respondNet_command (r : Reply) (st : NetStatus) :
    (s.respondNet r st).command = s.command := rfl
@[simp] theorem State.respondNet_status (r : Reply) (st : NetStatus) :
    (s.respondNet r st).status = s.status := rfl
@[simp] theorem State.respondNet_endpoints (r : Reply) (st : NetStatus) :
    (s.respondNet r st).endpoints = s.endpoints := rfl
@[simp] theorem State.respondNet_outstanding (r : Reply) (st : NetStatus) :
    (s.respondNet r st).outstanding = s.outstanding := rfl
@[simp] theorem State.respondNet_pending (r : Reply) (st : NetStatus) :
    (s.respondNet r st).pending = s.pending := rfl
@[simp] theorem State.respondNet_mem (r : Reply) (st : NetStatus) :
    (s.respondNet r st).mem = s.mem := rfl
@[simp] theorem State.respondNet_memOut (r : Reply) (st : NetStatus) :
    (s.respondNet r st).memOut = s.memOut := rfl
@[simp] theorem State.respondNet_netOut (r : Reply) (st : NetStatus) :
    (s.respondNet r st).netOut = s.netOut := rfl
@[simp] theorem State.respondNet_netInOut (r : Reply) (st : NetStatus) :
    (s.respondNet r st).netInOut = s.netInOut ++ [⟨r, st⟩] := rfl
@[simp] theorem State.respondNet_reports (r : Reply) (st : NetStatus) :
    (s.respondNet r st).reports = s.reports := rfl
@[simp] theorem State.respondNet_accessOut (r : Reply) (st : NetStatus) :
    (s.respondNet r st).accessOut = s.accessOut := rfl
@[simp] theorem State.respondNet_timeline (r : Reply) (st : NetStatus) :
    (s.respondNet r st).timeline = s.timeline := rfl
@[simp] theorem State.respondNet_netAnswers (r : Reply) (st : NetStatus) :
    (s.respondNet r st).netAnswers = s.netAnswers := rfl
@[simp] theorem State.respondNet_memAnswers (r : Reply) (st : NetStatus) :
    (s.respondNet r st).memAnswers = s.memAnswers := rfl
@[simp] theorem State.respondNet_freeCount (r : Reply) (st : NetStatus) :
    (s.respondNet r st).freeCount = s.freeCount := rfl

/-! ### respondAccess -/

@[simp] theorem State.respondAccess_cfg (r : AccessResp) : (s.respondAccess r).cfg = s.cfg := rfl
@[simp] theorem State.respondAccess_command (r : AccessResp) :
    (s.respondAccess r).command = s.command := rfl
@[simp] theorem State.respondAccess_status (r : AccessResp) :
    (s.respondAccess r).status = s.status := rfl
@[simp] theorem State.respondAccess_endpoints (r : AccessResp) :
    (s.respondAccess r).endpoints = s.endpoints := rfl
@[simp] theorem State.respondAccess_outstanding (r : AccessResp) :
    (s.respondAccess r).outstanding = s.outstanding := rfl
@[simp] theorem State.respondAccess_pending (r : AccessResp) :
    (s.respondAccess r).pending = s.pending := rfl
@[simp] theorem State.respondAccess_mem (r : AccessResp) : (s.respondAccess r).mem = s.mem := rfl
@[simp] theorem State.respondAccess_memOut (r : AccessResp) :
    (s.respondAccess r).memOut = s.memOut := rfl
@[simp] theorem State.respondAccess_netOut (r : AccessResp) :
    (s.respondAccess r).netOut = s.netOut := rfl
@[simp] theorem State.respondAccess_netInOut (r : AccessResp) :
    (s.respondAccess r).netInOut = s.netInOut := rfl
@[simp] theorem State.respondAccess_reports (r : AccessResp) :
    (s.respondAccess r).reports = s.reports := rfl
@[simp] theorem State.respondAccess_accessOut (r : AccessResp) :
    (s.respondAccess r).accessOut = s.accessOut ++ [r] := rfl
@[simp] theorem State.respondAccess_timeline (r : AccessResp) :
    (s.respondAccess r).timeline = s.timeline := rfl
@[simp] theorem State.respondAccess_netAnswers (r : AccessResp) :
    (s.respondAccess r).netAnswers = s.netAnswers := rfl
@[simp] theorem State.respondAccess_memAnswers (r : AccessResp) :
    (s.respondAccess r).memAnswers = s.memAnswers := rfl
@[simp] theorem State.respondAccess_freeCount (r : AccessResp) :
    (s.respondAccess r).freeCount = s.freeCount := rfl

/-! ### addTag -/

@[simp] theorem State.addTag_cfg (t : Txn) : (s.addTag t).cfg = s.cfg := rfl
@[simp] theorem State.addTag_command (t : Txn) : (s.addTag t).command = s.command := rfl
@[simp] theorem State.addTag_status (t : Txn) : (s.addTag t).status = s.status := rfl
@[simp] theorem State.addTag_endpoints (t : Txn) : (s.addTag t).endpoints = s.endpoints := rfl
@[simp] theorem State.addTag_outstanding (t : Txn) :
    (s.addTag t).outstanding =
      s.outstanding.filter (fun x => !x.hasTag t.port t.disc t.ep) ++ [t] := rfl
@[simp] theorem State.addTag_pending (t : Txn) : (s.addTag t).pending = s.pending := rfl
@[simp] theorem State.addTag_mem (t : Txn) : (s.addTag t).mem = s.mem := rfl
@[simp] theorem State.addTag_memOut (t : Txn) : (s.addTag t).memOut = s.memOut := rfl
@[simp] theorem State.addTag_netOut (t : Txn) : (s.addTag t).netOut = s.netOut := rfl
@[simp] theorem State.addTag_netInOut (t : Txn) : (s.addTag t).netInOut = s.netInOut := rfl
@[simp] theorem State.addTag_reports (t : Txn) : (s.addTag t).reports = s.reports := rfl
@[simp] theorem State.addTag_accessOut (t : Txn) : (s.addTag t).accessOut = s.accessOut := rfl
@[simp] theorem State.addTag_timeline (t : Txn) : (s.addTag t).timeline = s.timeline := rfl
@[simp] theorem State.addTag_netAnswers (t : Txn) : (s.addTag t).netAnswers = s.netAnswers := rfl
@[simp] theorem State.addTag_memAnswers (t : Txn) : (s.addTag t).memAnswers = s.memAnswers := rfl
@[simp] theorem State.addTag_freeCount (t : Txn) : (s.addTag t).freeCount = s.freeCount := rfl

/-! ### issueMem -/

@[simp] theorem State.issueMem_cfg (r : MemReq) : (s.issueMem r).cfg = s.cfg := rfl
@[simp] theorem State.issueMem_command (r : MemReq) : (s.issueMem r).command = s.command := rfl
@[simp] theorem State.issueMem_status (r : MemReq) : (s.issueMem r).status = s.status := rfl
@[simp] theorem State.issueMem_endpoints (r : MemReq) :
    (s.issueMem r).endpoints = s.endpoints := rfl
@[simp] theorem State.issueMem_outstanding (r : MemReq) :
    (s.issueMem r).outstanding = s.outstanding.filter (fun x => !x.hasTag .mem r.disc r.ep) ++
        [⟨.mem, r.disc, r.ep, r.addr, r.size, []⟩] := rfl
@[simp] theorem State.issueMem_pending (r : MemReq) : (s.issueMem r).pending = s.pending := rfl
@[simp] theorem State.issueMem_mem (r : MemReq) : (s.issueMem r).mem = s.mem := rfl
@[simp] theorem State.issueMem_memOut (r : MemReq) : (s.issueMem r).memOut = s.memOut ++ [r] := rfl
@[simp] theorem State.issueMem_netOut (r : MemReq) : (s.issueMem r).netOut = s.netOut := rfl
@[simp] theorem State.issueMem_netInOut (r : MemReq) : (s.issueMem r).netInOut = s.netInOut := rfl
@[simp] theorem State.issueMem_reports (r : MemReq) : (s.issueMem r).reports = s.reports := rfl
@[simp] theorem State.issueMem_accessOut (r : MemReq) :
    (s.issueMem r).accessOut = s.accessOut := rfl
@[simp] theorem State.issueMem_timeline (r : MemReq) : (s.issueMem r).timeline = s.timeline := rfl
@[simp] theorem State.issueMem_netAnswers (r : MemReq) :
    (s.issueMem r).netAnswers = s.netAnswers := rfl
@[simp] theorem State.issueMem_memAnswers (r : MemReq) :
    (s.issueMem r).memAnswers = s.memAnswers := rfl
@[simp] theorem State.issueMem_freeCount (r : MemReq) :
    (s.issueMem r).freeCount = s.freeCount := rfl

/-! ### issueNet -/

@[simp] theorem State.issueNet_cfg (r : NetReq) : (s.issueNet r).cfg = s.cfg := rfl
@[simp] theorem State.issueNet_command (r : NetReq) : (s.issueNet r).command = s.command := rfl
@[simp] theorem State.issueNet_status (r : NetReq) : (s.issueNet r).status = s.status := rfl
@[simp] theorem State.issueNet_endpoints (r : NetReq) :
    (s.issueNet r).endpoints = s.endpoints := rfl
@[simp] theorem State.issueNet_outstanding (r : NetReq) :
    (s.issueNet r).outstanding = s.outstanding.filter (fun x => !x.hasTag .net r.disc r.ep) ++
        [⟨.net, r.disc, r.ep, r.addr, r.size, []⟩] := rfl
@[simp] theorem State.issueNet_pending (r : NetReq) : (s.issueNet r).pending = s.pending := rfl
@[simp] theorem State.issueNet_mem (r : NetReq) : (s.issueNet r).mem = s.mem := rfl
@[simp] theorem State.issueNet_memOut (r : NetReq) : (s.issueNet r).memOut = s.memOut := rfl
@[simp] theorem State.issueNet_netOut (r : NetReq) : (s.issueNet r).netOut = s.netOut ++ [r] := rfl
@[simp] theorem State.issueNet_netInOut (r : NetReq) : (s.issueNet r).netInOut = s.netInOut := rfl
@[simp] theorem State.issueNet_reports (r : NetReq) : (s.issueNet r).reports = s.reports := rfl
@[simp] theorem State.issueNet_accessOut (r : NetReq) :
    (s.issueNet r).accessOut = s.accessOut := rfl
@[simp] theorem State.issueNet_timeline (r : NetReq) : (s.issueNet r).timeline = s.timeline := rfl
@[simp] theorem State.issueNet_netAnswers (r : NetReq) :
    (s.issueNet r).netAnswers = s.netAnswers := rfl
@[simp] theorem State.issueNet_memAnswers (r : NetReq) :
    (s.issueNet r).memAnswers = s.memAnswers := rfl
@[simp] theorem State.issueNet_freeCount (r : NetReq) :
    (s.issueNet r).freeCount = s.freeCount := rfl

/-! ### markRaced -/

@[simp] theorem State.markRaced_cfg (sp : Nat × Nat) : (s.markRaced sp).cfg = s.cfg := rfl
@[simp] theorem State.markRaced_command (sp : Nat × Nat) :
    (s.markRaced sp).command = s.command := rfl
@[simp] theorem State.markRaced_status (sp : Nat × Nat) :
    (s.markRaced sp).status = s.status := rfl
@[simp] theorem State.markRaced_endpoints (sp : Nat × Nat) :
    (s.markRaced sp).endpoints = s.endpoints := rfl
@[simp] theorem State.markRaced_outstanding (sp : Nat × Nat) :
    (s.markRaced sp).outstanding = s.outstanding.map fun t =>
        if t.port = .mem ∧ t.disc = .localTag then { t with raced := t.raced ++ [sp] } else t := rfl
@[simp] theorem State.markRaced_pending (sp : Nat × Nat) :
    (s.markRaced sp).pending = s.pending := rfl
@[simp] theorem State.markRaced_mem (sp : Nat × Nat) : (s.markRaced sp).mem = s.mem := rfl
@[simp] theorem State.markRaced_memOut (sp : Nat × Nat) :
    (s.markRaced sp).memOut = s.memOut := rfl
@[simp] theorem State.markRaced_netOut (sp : Nat × Nat) :
    (s.markRaced sp).netOut = s.netOut := rfl
@[simp] theorem State.markRaced_netInOut (sp : Nat × Nat) :
    (s.markRaced sp).netInOut = s.netInOut := rfl
@[simp] theorem State.markRaced_reports (sp : Nat × Nat) :
    (s.markRaced sp).reports = s.reports := rfl
@[simp] theorem State.markRaced_accessOut (sp : Nat × Nat) :
    (s.markRaced sp).accessOut = s.accessOut := rfl
@[simp] theorem State.markRaced_timeline (sp : Nat × Nat) :
    (s.markRaced sp).timeline = s.timeline := rfl
@[simp] theorem State.markRaced_netAnswers (sp : Nat × Nat) :
    (s.markRaced sp).netAnswers = s.netAnswers := rfl
@[simp] theorem State.markRaced_memAnswers (sp : Nat × Nat) :
    (s.markRaced sp).memAnswers = s.memAnswers := rfl
@[simp] theorem State.markRaced_freeCount (sp : Nat × Nat) :
    (s.markRaced sp).freeCount = s.freeCount := rfl

/-! ### dropMemAnswer -/

@[simp] theorem State.dropMemAnswer_memAnswers :
    s.dropMemAnswer.memAnswers = s.memAnswers.tail := rfl
@[simp] theorem State.dropMemAnswer_cfg : s.dropMemAnswer.cfg = s.cfg := rfl
@[simp] theorem State.dropMemAnswer_command : s.dropMemAnswer.command = s.command := rfl
@[simp] theorem State.dropMemAnswer_status : s.dropMemAnswer.status = s.status := rfl
@[simp] theorem State.dropMemAnswer_endpoints : s.dropMemAnswer.endpoints = s.endpoints := rfl
@[simp] theorem State.dropMemAnswer_outstanding : s.dropMemAnswer.outstanding = s.outstanding := rfl
@[simp] theorem State.dropMemAnswer_pending : s.dropMemAnswer.pending = s.pending := rfl
@[simp] theorem State.dropMemAnswer_mem : s.dropMemAnswer.mem = s.mem := rfl
@[simp] theorem State.dropMemAnswer_memOut : s.dropMemAnswer.memOut = s.memOut := rfl
@[simp] theorem State.dropMemAnswer_netOut : s.dropMemAnswer.netOut = s.netOut := rfl
@[simp] theorem State.dropMemAnswer_netInOut : s.dropMemAnswer.netInOut = s.netInOut := rfl
@[simp] theorem State.dropMemAnswer_reports : s.dropMemAnswer.reports = s.reports := rfl
@[simp] theorem State.dropMemAnswer_accessOut : s.dropMemAnswer.accessOut = s.accessOut := rfl
@[simp] theorem State.dropMemAnswer_timeline : s.dropMemAnswer.timeline = s.timeline := rfl
@[simp] theorem State.dropMemAnswer_netAnswers : s.dropMemAnswer.netAnswers = s.netAnswers := rfl
@[simp] theorem State.dropMemAnswer_freeCount : s.dropMemAnswer.freeCount = s.freeCount := rfl

/-! ### Reading an endpoint after an update -/

/-- Reading a replaced register by its name. -/
@[simp] theorem Endpoint.get_set (p : Endpoint) (f g : Field) (r : Reg) :
    (p.set f r).get g = if f = g then r else p.get g := by
  cases f <;> cases g <;> rfl

@[simp] theorem Endpoint.set_activity (p : Endpoint) (f : Field) (r : Reg) :
    (p.set f r).activity = p.activity := by
  cases f <;> rfl

@[simp] theorem Endpoint.get_withActivity (p : Endpoint) (a : Activity) (f : Field) :
    ({ p with activity := a } : Endpoint).get f = p.get f := by
  cases f <;> rfl

/-- An endpoint depends on the list of endpoints alone. -/
theorem State.ep_congr {s t : State} (h : s.endpoints = t.endpoints) (e : Nat) :
    s.ep e = t.ep e := by
  simp [State.ep, h]

/-- Endpoint `x` after a change of endpoint `e`. -/
theorem State.modifyEp_ep (e x : Nat) (g : Endpoint → Endpoint) :
    (s.modifyEp e g).ep x =
      if x = e ∧ e < s.endpoints.length then g (s.ep e) else s.ep x := by
  unfold State.ep
  rw [State.modifyEp_endpoints, List.getElem?_modify]
  by_cases hx : e = x
  · subst hx
    by_cases hl : e < s.endpoints.length
    · simp [hl]
    · simp [hl]
  · simp [hx, Ne.symm hx]

/-- The operation state of `x` after that of `e` is set. -/
theorem State.setActivity_activity (e x : Nat) (a : Activity) :
    (s.setActivity e a).activity x =
      if x = e ∧ e < s.endpoints.length then a else s.activity x := by
  unfold State.activity State.setActivity
  rw [State.modifyEp_ep]
  split <;> rfl

/-- A register after an operation state is set. -/
@[simp] theorem State.setActivity_reg (e x : Nat) (a : Activity) (f : Field) :
    (s.setActivity e a).reg x f = s.reg x f := by
  unfold State.reg State.setActivity
  rw [State.modifyEp_ep]
  split
  · next h => rw [h.1, Endpoint.get_withActivity]
  · rfl

/-- A register after a register is set. -/
theorem State.setReg_reg (e x : Nat) (f g : Field) (v : Nat) :
    (s.setReg e f v).reg x g =
      if x = e ∧ e < s.endpoints.length ∧ f = g then ⟨fitWord s.cfg v, true⟩ else s.reg x g := by
  unfold State.reg State.setReg
  rw [State.modifyEp_ep]
  by_cases h : x = e ∧ e < s.endpoints.length
  · rw [if_pos h, Endpoint.get_set, h.1]
    by_cases hf : f = g <;> simp [hf, h.2]
  · rw [if_neg h, if_neg (fun hc => h ⟨hc.1, hc.2.1⟩)]

/-- An operation state after a register is set. -/
@[simp] theorem State.setReg_activity (e x : Nat) (f : Field) (v : Nat) :
    (s.setReg e f v).activity x = s.activity x := by
  unfold State.activity State.setReg
  rw [State.modifyEp_ep]
  split
  · next h => rw [h.1, Endpoint.set_activity]
  · rfl

/-- Every endpoint after construction is an endpoint after reset (R54). -/
@[simp] theorem State.ofConfig_ep (c : Config) (e : Nat) :
    (State.ofConfig c).ep e = Endpoint.reset := by
  simp only [State.ep, State.ofConfig, List.getElem?_replicate]
  split <;> rfl

/-- An endpoint that exists. -/
theorem State.getElem?_endpoints {e : Nat} {p : Endpoint} (h : s.endpoints[e]? = some p) :
    s.ep e = p := by
  simp [State.ep, h]

end Sys2Proof.Machine
end

