-- ==== Sys2Proof/Laws/Ops.lean ====
section
/-!
SUPPORT. One lemma for each shared operation that says what it answers: sequencing, a needed
register, scheduling, freeing a tag, the captured context, the ring registers, and FC_ADVANCE.
-/

namespace Sys2Proof.Machine

/-! ### Sequencing -/

@[simp] theorem andThen_next {α β : Type} (a : α) (f : α → Ans β) :
    andThen (.next a) f = f a := rfl

@[simp] theorem andThen_fault {α β : Type} (r : Fault) (f : α → Ans β) :
    andThen (.fault r) f = .fault r := rfl

@[simp] theorem andThen_refused {α β : Type} (r : Refusal) (f : α → Ans β) :
    andThen (.refused r) f = .refused r := rfl

/-- A sequence answers next when both parts do. -/
theorem andThen_eq_next {α β : Type} {x : Ans α} {f : α → Ans β} {b : β} :
    andThen x f = .next b ↔ ∃ a, x = .next a ∧ f a = .next b := by
  cases x <;> simp

/-- A sequence faults when its first part does, or its second after the first. -/
theorem andThen_eq_fault {α β : Type} {x : Ans α} {f : α → Ans β} {r : Fault} :
    andThen x f = .fault r ↔ x = .fault r ∨ ∃ a, x = .next a ∧ f a = .fault r := by
  cases x <;> simp

/-! ### Registers a step needs -/

/-- A readable register gives its value (R55). -/
theorem needReg_of_readable {s : State} {e : Nat} {f : Field} (h : s.readable e f = true) :
    needReg e f s = .next (s.reg e f).value := by
  unfold needReg
  rw [if_neg]
  unfold State.readable at h
  revert h
  cases s.cfg.unwrittenFaults <;> cases (s.reg e f).written <;> simp

/-- What a needed register gives is its value. -/
theorem needReg_eq_next {s : State} {e : Nat} {f : Field} {v : Nat}
    (h : needReg e f s = .next v) : s.readable e f = true ∧ v = (s.reg e f).value := by
  unfold needReg at h
  split at h
  · cases h
  · next hw =>
    refine ⟨?_, by injection h with h; exact h.symm⟩
    unfold State.readable
    revert hw
    cases s.cfg.unwrittenFaults <;> cases (s.reg e f).written <;> simp

/-- A register that is not readable stops the step, by name (R55, U2). -/
theorem needReg_of_not_readable {s : State} {e : Nat} {f : Field}
    (h : s.readable e f = false) : needReg e f s = .fault (.unwrittenRegister e f) := by
  unfold needReg
  rw [if_pos]
  unfold State.readable at h
  revert h
  cases s.cfg.unwrittenFaults <;> cases (s.reg e f).written <;> simp

/-- CAPTURE(e) of readable registers (R201). -/
theorem capture_of_readable {s : State} {e : Nat} (h1 : s.readable e .messageAddr = true)
    (h2 : s.readable e .messageSize = true) (h3 : s.readable e .targetCore = true)
    (h4 : s.readable e .targetEndpoint = true) :
    capture e s = .next ⟨(s.reg e .messageAddr).value, (s.reg e .messageSize).value,
      (s.reg e .targetCore).value, (s.reg e .targetEndpoint).value⟩ := by
  simp only [capture, needReg_of_readable h1, needReg_of_readable h2, needReg_of_readable h3,
    needReg_of_readable h4, andThen_next]

/-- What CAPTURE(e) gives is the four registers (R201). -/
theorem capture_eq_next {s : State} {e : Nat} {x : TxCtx} (h : capture e s = .next x) :
    x = ⟨(s.reg e .messageAddr).value, (s.reg e .messageSize).value,
      (s.reg e .targetCore).value, (s.reg e .targetEndpoint).value⟩ := by
  unfold capture at h
  obtain ⟨a, ha, h⟩ := andThen_eq_next.1 h
  obtain ⟨b, hb, h⟩ := andThen_eq_next.1 h
  obtain ⟨c, hc, h⟩ := andThen_eq_next.1 h
  obtain ⟨d, hd, h⟩ := andThen_eq_next.1 h
  injection h with h
  rw [← h, (needReg_eq_next ha).2, (needReg_eq_next hb).2, (needReg_eq_next hc).2,
    (needReg_eq_next hd).2]

/-- The four values FC_ADVANCE reads are the registers' (R180). -/
theorem ringRegs_eq_next {s : State} {e : Nat} {f : Field} {r : RingRegs}
    (h : ringRegs e f s = .next r) :
    r = ⟨(s.reg e .bufferAddr).value, (s.reg e .bufferSize).value,
      (s.reg e .bufferMessageCount).value, (s.reg e f).value⟩ := by
  unfold ringRegs at h
  obtain ⟨a, ha, h⟩ := andThen_eq_next.1 h
  obtain ⟨b, hb, h⟩ := andThen_eq_next.1 h
  obtain ⟨c, hc, h⟩ := andThen_eq_next.1 h
  obtain ⟨d, hd, h⟩ := andThen_eq_next.1 h
  injection h with h
  rw [← h, (needReg_eq_next ha).2, (needReg_eq_next hb).2, (needReg_eq_next hc).2,
    (needReg_eq_next hd).2]

/-- The four values of readable registers (R180). -/
theorem ringRegs_of_readable {s : State} {e : Nat} {f : Field}
    (h1 : s.readable e .bufferAddr = true) (h2 : s.readable e .bufferSize = true)
    (h3 : s.readable e .bufferMessageCount = true) (h4 : s.readable e f = true) :
    ringRegs e f s = .next ⟨(s.reg e .bufferAddr).value, (s.reg e .bufferSize).value,
      (s.reg e .bufferMessageCount).value, (s.reg e f).value⟩ := by
  simp only [ringRegs, needReg_of_readable h1, needReg_of_readable h2, needReg_of_readable h3,
    needReg_of_readable h4, andThen_next]

/-! ### The memory's answers in atomic mode -/

/-- What the memory's part can answer: the response is handled, or the request stays outstanding
(R351, U8). -/
theorem memAnswered_eq_next {d : Disc} {e : Nat} {bytes : Bytes} {done : Bytes → State → Ans State}
    {s t : State} (h : memAnswered d e bytes done s = .next t) :
    (∃ data ms, memGives s.memAnswers bytes data ms ∧
      done data { s with memAnswers := ms } = .next t) ∨
    (s.memAnswers.head? = some .silent ∧ t = s.dropMemAnswer) := by
  unfold memAnswered at h
  split at h
  · next hm => exact .inl ⟨bytes, _, ⟨rfl, .inl ⟨hm, rfl⟩⟩, h⟩
  · next data failed hm =>
    cases failed with
    | true => simp at h
    | false => exact .inl ⟨data, _, ⟨rfl, .inr hm⟩, h⟩
  · next hm =>
    refine .inr ⟨?_, by injection h with h; exact h.symm⟩
    revert hm
    cases s.memAnswers <;> simp

/-- An answer with data is handled (R351). -/
theorem memAnswered_of_gives {d : Disc} {e : Nat} {bytes data : Bytes} {s : State}
    {ms : List MemAnswer} (h : memGives s.memAnswers bytes data ms)
    (done : Bytes → State → Ans State) :
    memAnswered d e bytes done s = done data { s with memAnswers := ms } := by
  obtain ⟨rfl, ⟨hm, rfl⟩ | hm⟩ := h <;> unfold memAnswered <;> rw [hm] <;> rfl

/-- With no answer the request stays outstanding (U8). -/
theorem memAnswered_silent {d : Disc} {e : Nat} {bytes : Bytes} {s : State}
    (h : s.memAnswers.head? = some .silent) (done : Bytes → State → Ans State) :
    memAnswered d e bytes done s = .next s.dropMemAnswer := by
  simp [memAnswered, List.headD_eq_head?_getD, h]

/-- A response that signals failure faults (R92). -/
theorem memAnswered_failed {d : Disc} {e : Nat} {bytes data : Bytes} {s : State}
    (h : s.memAnswers.head? = some (.response data true)) (done : Bytes → State → Ans State) :
    memAnswered d e bytes done s = .fault (.fabricFailure d e) := by
  simp [memAnswered, List.headD_eq_head?_getD, h]

/-! ### Scheduling -/

/-- Timed mode: the continuation becomes pending (R352). -/
theorem sched_timed {s : State} (h : s.cfg.atomicMode = false) (k : Continuation)
    (now : State → Ans State) :
    sched k now s = .next { s with pending := s.pending ++ [k] } := by
  simp [sched, h]

/-- Atomic mode: the continuation runs at once (R351). -/
theorem sched_atomic {s : State} (h : s.cfg.atomicMode = true) (k : Continuation)
    (now : State → Ans State) : sched k now s = now s := by
  simp [sched, h]

/-! ### Tags -/

/-- A response takes its tag out, or faults when no transaction carries it (R92). -/
theorem takeTag_eq_next {p : Port} {d : Disc} {e : Nat} {s t : State}
    (h : takeTag p d e s = .next t) :
    (∃ x ∈ s.outstanding, x.hasTag p d e = true) ∧
      t = { s with outstanding := s.outstanding.filter (fun x => !x.hasTag p d e) } := by
  unfold takeTag at h
  split at h
  · next ha => exact ⟨List.any_eq_true.1 ha, by injection h with h; exact h.symm⟩
  · cases h

/-- A response whose tag is outstanding takes it out (R40). -/
theorem takeTag_of_mem {p : Port} {d : Disc} {e : Nat} {s : State} {x : Txn}
    (hx : x ∈ s.outstanding) (ht : x.hasTag p d e = true) :
    takeTag p d e s =
      .next { s with outstanding := s.outstanding.filter (fun x => !x.hasTag p d e) } := by
  unfold takeTag
  rw [if_pos (List.any_eq_true.2 ⟨x, hx, ht⟩)]

/-! ### FC_ADVANCE -/

/-- What a consumer advance can answer (R182). -/
theorem fcAdvanceRead_eq_next {e : Nat} {s t : State} (h : fcAdvanceRead e s = .next t) :
    ((s.reg e .bufferMessageCount).value = 0 ∧ t = s.raise .exec .bufferEmpty e 0) ∨
    ((s.reg e .bufferMessageCount).value ≠ 0 ∧
      t = (s.setReg e .bufferReadPtr
            (nextPointer s.cfg.slotSize ⟨(s.reg e .bufferAddr).value,
              (s.reg e .bufferSize).value, (s.reg e .bufferMessageCount).value,
              (s.reg e .bufferReadPtr).value⟩)).setReg e .bufferMessageCount
            ((s.reg e .bufferMessageCount).value - 1)) := by
  unfold fcAdvanceRead at h
  obtain ⟨r, hr, h⟩ := andThen_eq_next.1 h
  have hr := ringRegs_eq_next hr
  subst hr
  split at h
  · next he =>
    refine .inl ⟨by simpa [ringEmpty] using he, ?_⟩
    injection h with h
    exact h.symm
  · next he =>
    refine .inr ⟨by simpa [ringEmpty] using he, ?_⟩
    injection h with h
    exact h.symm

/-- What a producer advance can answer (R183). -/
theorem fcAdvanceWrite_eq_next {e : Nat} {s : State} {x : State × NetStatus}
    (h : fcAdvanceWrite e s = .next x) :
    ((s.reg e .bufferSize).value ≤ (s.reg e .bufferMessageCount).value ∧
      x = (s.raise .rx .bufferFull e 0, .reject .bufferFull)) ∨
    ((s.reg e .bufferMessageCount).value < (s.reg e .bufferSize).value ∧
      x = ((s.setReg e .bufferWritePtr
            (nextPointer s.cfg.slotSize ⟨(s.reg e .bufferAddr).value,
              (s.reg e .bufferSize).value, (s.reg e .bufferMessageCount).value,
              (s.reg e .bufferWritePtr).value⟩)).setReg e .bufferMessageCount
            ((s.reg e .bufferMessageCount).value + 1), .ack)) := by
  unfold fcAdvanceWrite at h
  obtain ⟨r, hr, h⟩ := andThen_eq_next.1 h
  have hr := ringRegs_eq_next hr
  subst hr
  split at h
  · next he =>
    refine .inl ⟨by simpa [ringFull] using he, ?_⟩
    injection h with h
    exact h.symm
  · next he =>
    refine .inr ⟨by simpa [ringFull] using he, ?_⟩
    injection h with h
    exact h.symm

end Sys2Proof.Machine
end

