-- ==== Sys2Proof/Laws/PerInstr.lean ====
section
/-!
SUPPORT. Per-operation statements about the syntax. `EncodeWellFormed`: the encoder answers for
exactly the well-formed operations, so an out-of-range field is refused and never truncated (R102).
-/

namespace Sys2Proof.Laws.EncodeWellFormed

/-- The encoder answers exactly when the operation is well formed. -/
def Statement (i : Instr) : Prop := ∀ c : Config, (encode c i).isSome = i.wellFormed c

/-- A command word's encoding exists exactly when its fields fit. -/
theorem encodeCommand_isSome (c : Config) (op ep off : Nat) :
    (encodeCommand c op ep off).isSome = c.commandFits op ep off := by
  unfold encodeCommand
  split
  · next h => simp [h]
  · next h => simp [h]

/-- The encoder's check and a stimulus that exists whenever the check passes. -/
theorem of_stimulus {i : Instr} {c : Config}
    (h : i.wellFormed c = true → (stimulusOf c i).isSome = true) :
    (encode c i).isSome = i.wellFormed c := by
  unfold encode
  split
  · next hw => rw [h hw, hw]
  · next hw => simpa using hw

theorem idle (ep off : Nat) : Statement (.idle ep off) := fun c => of_stimulus fun h => by
  simpa [stimulusOf, encodeCommand_isSome, Instr.wellFormed] using h

theorem startOperation (ep off : Nat) : Statement (.startOperation ep off) := fun c =>
  of_stimulus fun h => by simpa [stimulusOf, encodeCommand_isSome, Instr.wellFormed] using h

theorem incrementReadPointer (ep off : Nat) : Statement (.incrementReadPointer ep off) :=
  fun c => of_stimulus fun h => by
    simpa [stimulusOf, encodeCommand_isSome, Instr.wellFormed] using h

theorem invalidOpcode (op ep off : Nat) : Statement (.invalidOpcode op ep off) := fun c =>
  of_stimulus fun h => by
    simp only [Instr.wellFormed, Bool.and_eq_true] at h
    simpa [stimulusOf, encodeCommand_isSome] using h.2

theorem evTxReadDone (e : Nat) (data : Bytes) : Statement (.evTxReadDone e data) := fun _ =>
  of_stimulus fun _ => rfl

theorem evTxAck (e : Nat) : Statement (.evTxAck e) := fun _ => of_stimulus fun _ => rfl

theorem evTxNack (e : Nat) (k : ErrCode) : Statement (.evTxNack e k) := fun _ =>
  of_stimulus fun _ => rfl

theorem evRxMsg (addr size : Nat) (data : Bytes) (reply : Reply) :
    Statement (.evRxMsg addr size data reply) := fun _ => of_stimulus fun _ => rfl

theorem evRxUnsupported (addr : Nat) (reply : Reply) :
    Statement (.evRxUnsupported addr reply) := fun _ => of_stimulus fun _ => rfl

theorem evRxWriteDone (f : Nat) : Statement (.evRxWriteDone f) := fun _ =>
  of_stimulus fun _ => rfl

end Sys2Proof.Laws.EncodeWellFormed
end

