-- ==== Sys2Proof/Laws/System.lean ====
section
/-!
SUPPORT. What the network's part of a system can do: finding a unit, and a step that puts nothing on
the network ports.
-/

namespace Sys2Proof.Machine

/-- Which unit an address names depends on the units' configurations alone (R110, R317). -/
theorem unitOf_congr {y z : System} {addr : Nat}
    (h : y.units.map (fun u => u.cfg) = z.units.map (fun u => u.cfg)) :
    unitOf y addr = unitOf z addr := by
  have key : ∀ l : List State,
      l.findIdx? (fun u => decide (u.cfg.coreId = u.cfg.netCoreOf addr)) =
        (l.map fun u => u.cfg).findIdx? fun c => decide (c.coreId = c.netCoreOf addr) := by
    intro l
    simp [List.findIdx?_map, Function.comp_def]
  unfold unitOf
  rw [key, key, h]

/-- A step that puts nothing on the network ports leaves the network as it was. -/
theorem collect_quiet {k : Nat} {old new : State} {y : System} (hi : new.netInOut = old.netInOut)
    (ho : new.netOut = old.netOut) :
    collect k old new y = { y with units := y.units.set k new } := by
  simp [collect, newRequests, hi, ho]

end Sys2Proof.Machine
end

