-- ==== Sys2Proof/Machine/Timing.lean ====
section
/-!
DEFINITION. The timed-mode latency formulas (R356). They order events only, no rule's state
depends on them (R357), and no step reads them (log 10).
-/

namespace Sys2Proof.Machine

/-- The header-delay and payload-delay annotations of a transaction (R46). -/
structure Delays where
  header : Nat
  payload : Nat
  deriving DecidableEq, Repr

/-- How long after the step that schedules it a continuation is scheduled (R356). The delays are
those of the transaction whose completion or arrival schedules it; atomic mode bypasses all of it
(R350). That the propagated transport delay of a register access is header plus payload is the
model's choice (log 10). -/
def scheduledAfter (c : Config) (d : Delays) (k : Continuation) : Nat :=
  if c.atomicMode then 0
  else
    match k with
    | .execute => c.latRegAccess + d.header + d.payload
    | .respond _ => c.latRegAccess + d.header + d.payload
    | .txIssueRead _ => c.latCmdToLocalReq
    | .txSend _ _ => c.latLocalRespToNetReq + d.header
    | .txFinal _ _ => Config.ticksToCycles (d.header + d.payload)
    | .rxIssueWrite _ => Config.ticksToCycles d.header + c.latNetReqToLocalReq
    | .rxFinish _ => d.header + d.payload + c.latLocalRespToNetResp

end Sys2Proof.Machine
end

