-- ==== Sys2Proof/Tests/Slice0.lean ====
section
/-!
SUPPORT. The model's own tests: ill-formed operations are refused, words written out from the spec's
tables decode to their operations, one step of each operation against the vectors of
spec/95_test_vectors.md, and for each statement with hypotheses a state that meets them.
-/

namespace Sys2Proof.Tests

open Sys2Proof Sys2Proof.Machine

/-! ### Small states -/

/-- A register that has been written. -/
def wr (v : Nat) : Reg := ⟨v, true⟩

/-- TXCFG: endpoint 2 of unit A (spec/95_test_vectors.md). -/
def txEndpoint : Endpoint :=
  { Endpoint.reset with
    mode := wr 0, messageAddr := wr 0x2000, messageSize := wr 32, targetCore := wr 3,
    targetEndpoint := wr 5 }

/-- RXCFG: endpoint 5 of unit B (spec/95_test_vectors.md). -/
def rxEndpoint : Endpoint :=
  { Endpoint.reset with
    mode := wr 1, bufferAddr := wr 0x3000, bufferSize := wr 2, bufferReadPtr := wr 0x3000,
    bufferWritePtr := wr 0x3000, bufferMessageCount := wr 0 }

/-- Unit A with TXCFG on endpoint 2 and RXCFG on endpoint 5, timed mode. -/
def unitA : State :=
  { State.reset with
    endpoints := [.reset, .reset, txEndpoint, .reset, .reset, rxEndpoint, .reset, .reset] }

/-- The same unit in atomic mode. -/
def atomicA : State := { unitA with cfg := { Config.ref with atomicMode := true } }

/-- The context TXCFG is captured into. -/
def ctxA : TxCtx := ⟨0x2000, 32, 3, 5⟩

/-- A transaction in flight. -/
def inFlight (p : Port) (d : Disc) (e : Nat) : Txn := ⟨p, d, e, 0x2000, 32, []⟩

/-- Unit A transmitting, its local read in flight. -/
def readingA : State :=
  { unitA.setActivity 2 (.transmitting ctxA) with outstanding := [inFlight .mem .localTag 2] }

/-- Unit A transmitting, its network write in flight. -/
def sendingA : State :=
  { unitA.setActivity 2 (.transmitting ctxA) with outstanding := [inFlight .net .localTag 2] }

/-- The handle of a delivered transaction. -/
def r9 : Reply := .network 9

/-- The context of a two-byte message from core 1, endpoint 2. -/
def ctxB : RxCtx := ⟨1, 2, 2, [0xAA, 0xBB], r9⟩

/-- Unit A receiving on endpoint 5, its local write in flight. -/
def writingA : State :=
  { unitA.setActivity 5 (.receiving ctxB) with outstanding := [inFlight .mem .forwardedTag 5] }

/-- A message of two bytes. -/
def msg2 : Bytes := [1, 2, 2, 0, 0xAA, 0xBB]

/-- What a next state holds. -/
def look {α : Type} (x : Ans State) (g : State → α) : Option α :=
  match x with
  | .next t => some (g t)
  | _ => none

/-- Why a step stopped with a fault. -/
def faultOf (x : Ans State) : Option Fault :=
  match x with
  | .fault r => some r
  | _ => none

/-- Why a step was refused. -/
def refusalOf (x : Ans State) : Option Refusal :=
  match x with
  | .refused r => some r
  | _ => none

/-! ### Ill-formed operations are refused (R102, R40, R77, R240) -/

/-- Ill-formed: the well-formedness check and the encoder both refuse. -/
def illFormed (i : Instr) : Bool := !i.wellFormed Config.ref && (encode Config.ref i).isNone

theorem test_illFormed_endpoint : illFormed (.startOperation 16 0) = true := by decide
theorem test_illFormed_offset : illFormed (.idle 0 0x4000000) = true := by decide
theorem test_illFormed_increment : illFormed (.incrementReadPointer 16 0) = true := by decide
theorem test_illFormed_opcode_wide : illFormed (.invalidOpcode 4 0 0) = true := by decide
theorem test_illFormed_opcode_defined : illFormed (.invalidOpcode 2 0 0) = true := by decide
theorem test_illFormed_readDone_endpoint : illFormed (.evTxReadDone 8 [0]) = true := by decide
theorem test_illFormed_readDone_empty : illFormed (.evTxReadDone 2 []) = true := by decide
theorem test_illFormed_readDone_long :
    illFormed (.evTxReadDone 2 (List.replicate 61 0)) = true := by decide
theorem test_illFormed_ack : illFormed (.evTxAck 8) = true := by decide
theorem test_illFormed_nack : illFormed (.evTxNack 8 .bufferFull) = true := by decide
theorem test_illFormed_msg_addr :
    illFormed (.evRxMsg 0x10000000000000000 6 msg2 r9) = true := by decide
theorem test_illFormed_msg_size : illFormed (.evRxMsg 0x35 5 msg2 r9) = true := by decide
theorem test_illFormed_unsupported :
    illFormed (.evRxUnsupported 0x10000000000000000 r9) = true := by decide
theorem test_illFormed_writeDone : illFormed (.evRxWriteDone 8) = true := by decide

/-! ### Decoding, from the tables of spec/30_encoding.md -/

/-- R109: IDLE, ep 0, off 0 is the word 0. -/
theorem test_decode_idle :
    decodeCommand Config.ref 0b000000 = .idle 0 0 := by decide
/-- V-EX-2: opcode 00, ep 0000, off 1 at bit 6. -/
theorem test_decode_idle_offset :
    decodeCommand Config.ref 0b1000000 = .idle 0 1 := by decide
/-- R109: opcode 01, ep 0011 at bits 5..2, off 101 at bits 8..6. -/
theorem test_decode_start :
    decodeCommand Config.ref 0b101001101 = .startOperation 3 5 := by decide
/-- R109: opcode 10, ep 0101. -/
theorem test_decode_increment :
    decodeCommand Config.ref 0b010110 = .incrementReadPointer 5 0 := by decide
/-- R109: opcode 11, ep 0001. -/
theorem test_decode_invalid :
    decodeCommand Config.ref 0b000111 = .invalidOpcode 3 1 0 := by decide
/-- V-COD-7: bits above the three fields are ignored. -/
theorem test_decode_high_bits :
    decodeCommand Config.ref 0x100000009 = .startOperation 2 0 := by decide
/-- V-COD-3, V-COD-5, V-COD-9 and V-COD-10. -/
theorem test_encode :
    encodeCommand Config.ref 1 3 5 = some 0x14D ∧
    encodeCommand Config.ref 3 15 0x3FFFFFF = some 0xFFFFFFFF ∧
    encodeCommand Config.ref 1 16 0 = none ∧ encodeCommand Config.ref 0 0 0x4000000 = none := by
  decide
/-- R41, R116: a memory response is routed by its tag. -/
theorem test_decode_memResp :
    (decode Config.ref (.memResp ⟨.localTag, 2, [7], false⟩)).toOption =
      some (.evTxReadDone 2 [7]) ∧
    (decode Config.ref (.memResp ⟨.forwardedTag, 5, [], false⟩)).toOption =
      some (.evRxWriteDone 5) ∧
    (decode Config.ref (.memResp ⟨.localTag, 2, [7], true⟩)).toOption = none := by decide
/-- R41, R116: a network response is routed by its tag and status. -/
theorem test_decode_netResp :
    (decode Config.ref (.netResp ⟨.localTag, 2, .ack⟩)).toOption = some (.evTxAck 2) ∧
    (decode Config.ref (.netResp ⟨.localTag, 2, .reject .bufferFull⟩)).toOption =
      some (.evTxNack 2 .bufferFull) ∧
    (decode Config.ref (.netResp ⟨.forwardedTag, 2, .ack⟩)).toOption = none := by decide
/-- R114, R240: an arrival is classified by its kind, after its length check. -/
theorem test_decode_netIn :
    (decode Config.ref (.netIn ⟨0x35, 6, .write, msg2, r9⟩)).toOption =
      some (.evRxMsg 0x35 6 msg2 r9) ∧
    (decode Config.ref (.netIn ⟨0x35, 3, .read, [1, 2, 0], r9⟩)).toOption =
      some (.evRxUnsupported 0x35 r9) ∧
    (decode Config.ref (.netIn ⟨0x35, 5, .write, msg2, r9⟩)).toOption = none ∧
    (decode Config.ref (.netIn ⟨0x35, 3, .read, [], r9⟩)).toOption = none := by decide
/-- V-NET-1, V-NET-4, V-NET-6, V-NET-8. -/
theorem test_network_address :
    Config.ref.encodeNetworkAddress 3 5 = 0x35 ∧ Config.ref.encodeNetworkAddress 2 16 = 0x30 ∧
    Config.ref.encodeNetworkAddress 0x1000000000000000 5 = 5 ∧
    Config.ref.netEpOf 0x1235 = 5 := by decide
/-- V-HDR-1, V-HDR-3. -/
theorem test_header :
    header 1 2 32 = [0x01, 0x02, 0x20, 0x00] ∧ header 3 0 0x0102 = [0x03, 0x00, 0x02, 0x01] := by
  decide

/-! ### One step of each operation -/

/-- V-EX-3: IDLE out of range reports. -/
theorem test_idle_out_of_range :
    look (step (State.reset.withFetchWord 64 0x24)) (fun t => (t.reports, t.command)) =
      some ([⟨.exec, .epOutOfRange, 9, 0⟩], 0x24) := by decide
/-- V-EX-2: IDLE in range changes nothing. -/
theorem test_idle :
    look (step (State.reset.withFetchWord 64 0x40)) (fun t => (t.reports, t.command, t.pending)) =
      some ([], 0x40, []) := by decide
/-- V-START-1: accepted. -/
theorem test_start_accepted :
    look (step (unitA.withFetchWord 64 0x9))
      (fun t => (t.status, t.activity 2, t.pending, t.reports, t.command)) =
      some (1, .transmitting ctxA, [.txIssueRead 2], [], 9) := by decide
/-- V-START-9: the size check does not wrap. -/
theorem test_start_no_wrap :
    look (exec (.startOperation 2 0) (unitA.setReg 2 .messageSize 0xFFFFFFFFFFFFFFFF))
      (fun t => (t.reports, t.pending)) = some ([⟨.exec, .sizeLimit, 2, 0⟩], []) := by decide
/-- V-INCR-2: the consumer advance wraps. -/
theorem test_increment_wraps :
    look (exec (.incrementReadPointer 5 0)
        ((unitA.setReg 5 .bufferReadPtr 0x3040).setReg 5 .bufferMessageCount 2))
      (fun t => (t.reg 5 .bufferReadPtr, t.reg 5 .bufferMessageCount, t.reg 5 .bufferWritePtr)) =
      some (wr 0x3000, wr 1, wr 0x3000) := by decide
/-- V-INCR-12: the bound is not reduced, the stored pointer is. -/
theorem test_increment_top :
    look (exec (.incrementReadPointer 5 0)
        (((unitA.setReg 5 .bufferAddr 0xFFFFFFFFFFFFFFC0).setReg 5 .bufferReadPtr
          0xFFFFFFFFFFFFFFC0).setReg 5 .bufferMessageCount 1))
      (fun t => (t.reg 5 .bufferReadPtr, t.reg 5 .bufferMessageCount)) = some (wr 0, wr 0) := by
  decide
/-- V-EX-4: an invalid opcode reports its value. -/
theorem test_invalid_opcode :
    look (step (State.reset.withFetchWord 64 0x7)) (fun t => t.reports) =
      some [⟨.exec, .invalidOpcode, 1, 3⟩] := by decide
/-- V-EX-5: the range check comes first. -/
theorem test_invalid_opcode_out_of_range :
    look (step (State.reset.withFetchWord 64 0x23)) (fun t => t.reports) =
      some [⟨.exec, .epOutOfRange, 8, 0⟩] := by decide
/-- V-TX-4: the read's completion schedules the send of header and data. -/
theorem test_readDone :
    look (exec (.evTxReadDone 2 (List.replicate 32 7)) readingA)
      (fun t => (t.outstanding, t.pending)) =
      some ([], [.txSend 2 ([0x01, 0x02, 0x20, 0x00] ++ List.replicate 32 7)]) := by decide
/-- V-TX-13: the wrong length faults. -/
theorem test_readDone_length :
    faultOf (exec (.evTxReadDone 2 (List.replicate 31 7)) readingA) =
      some (.responseLength 2) := by decide
/-- V-TX-6: the acknowledgment schedules finalisation. -/
theorem test_ack :
    look (exec (.evTxAck 2) sendingA) (fun t => (t.outstanding, t.pending)) =
      some ([], [.txFinal 2 .ack]) := by decide
/-- V-TX-12: an unmatched response faults. -/
theorem test_ack_unmatched :
    faultOf (exec (.evTxAck 4) sendingA) = some (.unmatchedResponse .net .localTag 4) := by decide
/-- V-TX-8, in atomic mode: finalisation reports the peer's code 7. -/
theorem test_nack :
    look (exec (.evTxNack 2 .bufferFull)
        { sendingA with cfg := atomicA.cfg, command := 9, status := 1 })
      (fun t => (t.command, t.status, t.activity 2, t.reports)) =
      some (0, 0, .idle, [⟨.tx, .remoteRejected, 2, 7⟩]) := by decide
/-- V-RX-1, in atomic mode: the payload at the write pointer, the advance, ACK. -/
theorem test_msg_accepted :
    look (exec (.evRxMsg 0x35 6 msg2 r9) atomicA)
      (fun t => (t.mem, t.reg 5 .bufferWritePtr, t.reg 5 .bufferMessageCount, t.netInOut)) =
      some ([(0x3000, 0xAA), (0x3001, 0xBB)], wr 0x3040, wr 1, [⟨r9, .ack⟩]) := by decide
/-- V-RX-19: the range check comes before the malformed check. -/
theorem test_msg_out_of_range :
    look (exec (.evRxMsg 0x38 3 [1, 2, 0] r9) unitA) (fun t => (t.netInOut, t.reports)) =
      some ([⟨r9, .reject .epOutOfRange⟩], [⟨.rx, .epOutOfRange, 8, 0⟩]) := by decide
/-- V-RX-4. -/
theorem test_unsupported :
    look (exec (.evRxUnsupported 0x35 r9) unitA) (fun t => (t.netInOut, t.reports)) =
      some ([⟨r9, .reject .unsupported⟩], [⟨.rx, .unsupported, 5, 0⟩]) := by decide
/-- R251: the write's completion schedules RX_FINISH. -/
theorem test_writeDone :
    look (exec (.evRxWriteDone 5) writingA) (fun t => (t.outstanding, t.pending)) =
      some ([], [.rxFinish 5]) := by decide
/-- V-RX-20, step 4, in atomic mode: the late rejection. -/
theorem test_writeDone_late_rejection :
    look (exec (.evRxWriteDone 5)
        { writingA.setReg 5 .bufferMessageCount 2 with cfg := atomicA.cfg })
      (fun t => (t.reg 5 .bufferWritePtr, t.activity 5, t.netInOut, t.reports)) =
      some (wr 0x3000, .idle, [⟨r9, .reject .bufferFull⟩], [⟨.rx, .bufferFull, 5, 0⟩]) := by decide

/-! ### One step of the front end -/

/-- V-EX-11: a STATUS write triggers nothing. -/
theorem test_status_write :
    look (step { atomicA with timeline := [.regWrite .status 1] })
      (fun t => (t.status, t.accessOut, t.reports)) = some (1, [.writeDone .status], []) := by
  decide
/-- R74: a partial-width access is refused. -/
theorem test_partial_width :
    refusalOf (step { unitA with timeline := [.extRead 0 32] }) = some .partialWidthAccess := by
  decide
/-- V-START-10, with R55 taken to the letter: an unwritten MODE faults. -/
theorem test_unwritten_mode :
    faultOf (exec (.startOperation 3 0)
        { unitA with cfg := { Config.ref with unwrittenFaults := true } }) =
      some (.unwrittenRegister 3 .mode) := by decide
/-- V-TX-3: TX_ISSUE_READ. -/
theorem test_issueRead :
    look (step { unitA.setActivity 2 (.transmitting ctxA) with
        pending := [.txIssueRead 2], timeline := [.run 0] })
      (fun t => (t.memOut, t.pending)) =
      some ([⟨0x2000, 32, .read, [], .localTag, 2⟩], []) := by decide
/-- V-TX-5: TX_SEND to address 0x35, 36 bytes. -/
theorem test_send :
    look (step { unitA.setActivity 2 (.transmitting ctxA) with
        pending := [.txSend 2 [5]], timeline := [.run 0] })
      (fun t => t.netOut) = some [⟨0x35, 36, [5], .localTag, 2⟩] := by decide

/-! ### Every statement's hypotheses are met somewhere -/

/-- Whether a step answers a next state. -/
def answers (x : Ans State) : Bool := (look x fun _ => ()).isSome

theorem exists_next {x : Ans State} (h : answers x = true) : ∃ t, x = .next t := by
  cases x with
  | next t => exact ⟨t, rfl⟩
  | fault r => cases h
  | refused r => cases h

/-- A state with this event next. -/
def withEvent (s : State) (ev : Event) : State := { s with timeline := [ev] }

theorem test_witness_CommandWordCodec : Config.ref.valid = true ∧
    (3 < 2 ^ Config.ref.opcodeWidth ∧ 15 < 2 ^ Config.ref.epWidth ∧
      0x3FFFFFF < 2 ^ Config.ref.offsetWidth) ∧
    2 ^ Config.ref.opcodeWidth ≤ 4 ∧ 2 ^ Config.ref.epWidth ≤ 16 ∧
      2 ^ Config.ref.offsetWidth ≤ 0x4000000 := by decide

theorem test_witness_DecodeEncodeAgree : Config.ref.valid = true ∧
    encode Config.ref (.startOperation 3 5) = some (.word 0x14D) ∧
    encode Config.ref (.invalidOpcode 3 15 0x3FFFFFF) = some (.word 0xFFFFFFFF) ∧
    encode Config.ref (.evTxNack 7 .bufferFull) =
      some (.netResp ⟨.localTag, 7, .reject .bufferFull⟩) ∧
    encode Config.ref (.evRxMsg 0x35 6 msg2 r9) = some (.netIn ⟨0x35, 6, .write, msg2, r9⟩) := by
  decide

theorem test_witness_EncodeDecodeWord :
    Config.ref.valid = true ∧ 0xFFFFFFFFFFFFFFFF < 2 ^ Config.ref.regWidth := by decide

theorem test_witness_NetworkAddressRoundTrip : Config.ref.valid = true ∧
    15 < 2 ^ Config.ref.netEpBits ∧
    0xFFFFFFFFFFFFFFF < 2 ^ (Config.ref.regWidth - Config.ref.netEpBits) := by decide

theorem test_witness_MessageRoundTrip :
    ({ Config.ref with coreId := 255 } : Config).coreId ≤ 255 ∧ 255 < 256 ∧ 65535 < 65536 := by
  decide

theorem test_witness_StepRunsPlacedCommand :
    unitA.cfg.valid = true ∧ atomicA.cfg.valid = true := by decide

theorem test_witness_StepRunsPortEvent : unitA.cfg.valid = true ∧
    decode unitA.cfg (.memResp ⟨.forwardedTag, 5, [], false⟩) = .ok (.evRxWriteDone 5) ∧
    decode unitA.cfg (.netResp ⟨.localTag, 2, .ack⟩) = .ok (.evTxAck 2) ∧
    decode unitA.cfg (.netIn ⟨0x35, 6, .write, msg2, r9⟩) = .ok (.evRxMsg 0x35 6 msg2 r9) ∧
    readingA.outstanding.find? (fun t => t.hasTag .mem .localTag 2) =
      some (inFlight .mem .localTag 2) ∧
    writingA.outstanding.find? (fun t => t.hasTag .mem .forwardedTag 5) =
      some (inFlight .mem .forwardedTag 5) ∧
    (∀ g ∈ unitA.outstanding, g.hasTag .mem .localTag 2 = false) ∧ unitA.mem.wf ∧
    [(7 : Byte)].length ≤ 2 ^ unitA.cfg.regWidth :=
  ⟨by decide, rfl, rfl, rfl, by decide, by decide, by decide, by decide, by decide⟩

/-- A read of two bytes whose second byte the CPU has written, and one beside the written span. -/
theorem test_witness_StepRunsPortEvent_raced :
    (⟨.mem, .localTag, 2, 0x2000, 2, [(0x2001, 1)]⟩ : Txn).racedByCpu unitA.cfg ∧
    ¬(⟨.mem, .localTag, 2, 0x2000, 2, []⟩ : Txn).racedByCpu unitA.cfg :=
  ⟨⟨1, 0, (0x2001, 1), by decide, by decide, by decide, by decide⟩, by
    rintro ⟨_, _, _, _, h, _⟩
    cases h⟩

/-- Unit A with this continuation second in `pending` and chosen next. -/
def withPending (s : State) (k : Continuation) : State :=
  { s with pending := [.execute, k], timeline := [.run 1] }

theorem test_witness_StepRunsExecutor : unitA.cfg.valid = true ∧
    (withPending unitA .execute).timeline = .run 1 :: [] ∧
    (withPending unitA .execute).pending[1]? = some .execute := by decide

/-- Unit A with COMMAND, STATUS and a register of endpoint 7 at external addresses (R51). -/
def mappedA : State :=
  { unitA with
    cfg :=
      { Config.ref with
        regAddrMap :=
          [(0x80, .command), (0x88, .status), (0x90, .endpoint 7 .mode)] } }

theorem test_witness_CommandWriteTriggers :
    unitA.cfg.valid = true ∧ unitA.cfg.atomicMode = false ∧
    atomicA.cfg.valid = true ∧ atomicA.cfg.atomicMode = true ∧
    (withEvent atomicA (.regWrite .command 9)).timeline = .regWrite .command 9 :: [] ∧
    (Event.regWrite .command 9).writesReg atomicA.cfg .command 9 ∧
    mappedA.cfg.valid = true ∧
    (Event.extWrite 0x80 64 9).writesReg mappedA.cfg .command 9 ∧ 32 ≠ mappedA.cfg.regWidth :=
  ⟨by decide, by decide, by decide, by decide, rfl, .inl rfl, by decide,
    .inr ⟨0x80, by decide, rfl⟩, by decide⟩

theorem test_witness_EndpointRegisterWrite : unitA.cfg.valid = true ∧ unitA.shaped ∧
    7 < unitA.cfg.endpointCount ∧
    (withEvent unitA (.regWrite (.endpoint 7 .mode) 1)).timeline =
      .regWrite (.endpoint 7 .mode) 1 :: [] ∧
    (Event.regWrite (.endpoint 7 .mode) 1).writesReg unitA.cfg (.endpoint 7 .mode) 1 ∧
    (Event.extWrite 0x90 64 1).writesReg mappedA.cfg (.endpoint 7 .mode) 1 ∧
    (withPending unitA (.respond (.writeDone (.endpoint 7 .mode)))).pending[1]? =
      some (.respond (.writeDone (.endpoint 7 .mode))) :=
  ⟨by decide, by decide, by decide, rfl, .inl rfl, .inr ⟨0x90, by decide, rfl⟩, rfl⟩

theorem test_witness_StatusWrite : unitA.cfg.valid = true ∧
    (withEvent unitA (.regWrite .status 1)).timeline = .regWrite .status 1 :: [] ∧
    (Event.regWrite .status 1).writesReg unitA.cfg .status 1 ∧
    (Event.extWrite 0x88 64 1).writesReg mappedA.cfg .status 1 ∧
    (withPending unitA (.respond (.writeDone .status))).timeline = .run 1 :: [] ∧
    (withPending unitA (.respond (.writeDone .status))).pending[1]? =
      some (.respond (.writeDone .status)) :=
  ⟨by decide, rfl, .inl rfl, .inr ⟨0x88, by decide, rfl⟩, rfl, rfl⟩

theorem test_witness_RegisterReadHasNoEffect : unitA.cfg.valid = true ∧
    (∀ e f, RegName.endpoint 5 .mode = .endpoint e f → e < unitA.cfg.endpointCount) ∧
    (unitA.reg 5 .mode).written = true ∧
    (∀ e f, RegName.endpoint 7 .mode = .endpoint e f → e < unitA.cfg.endpointCount) ∧
    (unitA.reg 7 .mode).written = false ∧
    (∀ e f, RegName.command = .endpoint e f → e < unitA.cfg.endpointCount) ∧
    (withEvent unitA (.regRead .command)).timeline = .regRead .command :: [] ∧
    (Event.regRead .command).readsReg unitA.cfg .command ∧
    (Event.extRead 0x90 64).readsReg mappedA.cfg (.endpoint 7 .mode) ∧
    32 ≠ mappedA.cfg.regWidth ∧
    (withPending unitA (.respond (.readValue .status 1))).pending[1]? =
      some (.respond (.readValue .status 1)) :=
  ⟨by decide, fun _ _ h => by injection h with h _; subst h; decide, by decide,
    fun _ _ h => by injection h with h _; subst h; decide, by decide, by rintro _ _ ⟨⟩, rfl,
    .inl rfl, .inr ⟨0x90, by decide, rfl⟩, by decide, rfl⟩

theorem test_witness_BadConfigurationRefused :
    (2 + 4 + 26 ≤ 64 ∧ 1 ≤ 8 ∧ 8 ≤ 256 ∧ 8 ≤ 2 ^ 4 ∧ 4 + 1 ≤ 64 ∧ 64 ≤ 4 + 65535 ∧
      64 - 4 ≤ 64 ∧ 1 ≤ 255 ∧ 1 ≤ 4 ∧ 4 < 64) ∧
    State.construct { Config.ref with offsetWidth := 58 } ≠ none ∧
    State.construct { Config.ref with offsetWidth := 59 } = none ∧
    State.construct { Config.ref with endpointCount := 17 } = none ∧
    State.construct { Config.ref with maxMessageSize := 4 } = none ∧
    State.construct { Config.ref with slotSize := 60 } ≠ none ∧
    State.construct { Config.ref with slotSize := 59 } = none ∧
    State.construct { Config.ref with coreId := 256 } = none ∧
    State.construct { Config.ref with netEpBits := 64 } = none := by decide

theorem test_witness_IdleBlockStays : readingA.cfg.valid = true ∧
    readingA.timeline = [] ∧ readingA.pending = [] ∧ State.reset.cfg.valid = true ∧
    State.reset.timeline = [] ∧ State.reset.pending = [] := by decide

theorem test_witness_ResetState : Config.ref.valid = true ∧
    ({ Config.ref with offsetWidth := 58, slotSize := 60, coreId := 255 } : Config).valid = true :=
  by decide

theorem test_witness_OutOfRangeReported :
    unitA.cfg.endpointCount ≤ unitA.cfg.epOf 0x20 ∧
    unitA.cfg.endpointCount ≤ unitA.cfg.epOf 0x3F := by decide

theorem test_witness_IdleIsNoOp : 7 < unitA.cfg.endpointCount ∧ unitA.cfg.endpointCount ≤ 8 ∧
    unitA.cfg.valid = true := by decide

theorem test_witness_InvalidOpcodeReported :
    3 ≤ 3 ∧ 7 < unitA.cfg.endpointCount ∧ unitA.cfg.endpointCount ≤ 8 := by decide

theorem test_witness_IncrementReadPointerResult : 5 < unitA.cfg.endpointCount ∧
    (∀ f ∈ [Field.bufferAddr, .bufferSize, .bufferMessageCount, .bufferReadPtr],
      (unitA.reg 5 f).written = true) ∧
    (unitA.reg 5 .bufferMessageCount).value = 0 ∧
    0 < ((unitA.setReg 5 .bufferMessageCount 1).reg 5 .bufferMessageCount).value ∧
    ∀ f ∈ [Field.bufferAddr, .bufferSize, .bufferMessageCount, .bufferReadPtr],
      ((unitA.setReg 5 .bufferMessageCount 1).reg 5 f).written = true := by decide

/-- Unit A with R55 taken to the letter. -/
def strictA : State := { unitA with cfg := { Config.ref with unwrittenFaults := true } }

/-- The first check of START that fails (R153). -/
def startCode (s : State) (e : Nat) : Option ErrCode :=
  if (s.reg e .mode).value = 1 then some ErrCode.startOnReceive
  else if (s.reg e .mode).value ≠ 0 then some .invalidMode
  else if s.activity e ≠ .idle then some .epBusy
  else if (s.reg e .messageSize).value = 0 ∨
      s.cfg.maxMessageSize < (s.reg e .messageSize).value + 4 then some .sizeLimit
  else none

theorem test_witness_StartRejections : 2 < unitA.cfg.endpointCount ∧
    unitA.readable 2 .mode = true ∧ unitA.readable 2 .messageSize = true ∧
    startCode (unitA.setReg 2 .mode 1) 2 = some .startOnReceive ∧
    startCode (unitA.setReg 2 .mode 2) 2 = some .invalidMode ∧
    startCode readingA 2 = some .epBusy ∧
    startCode (unitA.setReg 2 .messageSize 0) 2 = some .sizeLimit ∧
    startCode (unitA.setReg 2 .messageSize 61) 2 = some .sizeLimit ∧
    startCode (unitA.setReg 2 .messageSize 60) 2 = none ∧
    strictA.readable 5 .mode = true ∧ strictA.readable 5 .messageSize = false ∧
    (strictA.reg 5 .mode).value ≠ 0 ∧ startCode strictA 5 = some .startOnReceive := by decide

/-- START on endpoint `e` is accepted (R153). -/
abbrev startReady (s : State) (e : Nat) : Prop :=
  s.cfg.valid = true ∧ e < s.cfg.endpointCount ∧ s.shaped ∧
  (∀ f ∈ [Field.mode, .messageAddr, .messageSize, .targetCore, .targetEndpoint],
    s.readable e f = true) ∧
  (s.reg e .mode).value = 0 ∧ s.activity e = .idle ∧ 1 ≤ (s.reg e .messageSize).value ∧
  (s.reg e .messageSize).value + 4 ≤ s.cfg.maxMessageSize ∧ ∀ t ∈ s.outstanding, t.ep ≠ e

theorem test_witness_StartAcceptsTimed : unitA.cfg.atomicMode = false ∧ startReady unitA 2 ∧
    startReady (unitA.setReg 2 .messageSize 1) 2 ∧
    startReady (unitA.setReg 2 .messageSize 60) 2 := by decide

theorem test_witness_StartRunsWholeInAtomicMode : atomicA.cfg.atomicMode = true ∧
    startReady atomicA 2 ∧
    atomicA.cfg.netCoreOf (atomicA.cfg.encodeNetworkAddress (atomicA.reg 2 .targetCore).value
      (atomicA.reg 2 .targetEndpoint).value) ≠ atomicA.cfg.coreId ∧
    atomicA.netAnswers = [] ∧
    ({ atomicA with netAnswers := [.reject .bufferFull] } : State).netAnswers =
      .reject .bufferFull :: [] := by decide

theorem test_witness_memGives (stored : Bytes) :
    memGives [] stored stored [] ∧ memGives [.served] stored stored [] ∧
    memGives [.response (List.replicate 32 9) false, .silent] stored (List.replicate 32 9)
      [.silent] ∧ (List.replicate 32 (9 : Byte)).length = (atomicA.reg 2 .messageSize).value ∧
    (readBytes atomicA.cfg atomicA.mem 0x2000 32).length = 32 ∧
    memGives [.response [] false] [] [] [] ∧ memGives [] [] [] [] :=
  ⟨⟨rfl, .inl ⟨rfl, rfl⟩⟩, ⟨rfl, .inl ⟨rfl, rfl⟩⟩, ⟨rfl, .inr rfl⟩, by decide, by decide,
    ⟨rfl, .inr rfl⟩, ⟨rfl, .inl ⟨rfl, rfl⟩⟩⟩

/-- The heads of `memAnswers` that the statements on atomic mode tell apart. -/
theorem test_witness_memAnswers :
    ({ atomicA with memAnswers := [.silent] } : State).memAnswers.head? = some .silent ∧
    ({ atomicA with memAnswers := [.response [] true] } : State).memAnswers.head? =
      some (.response [] true) ∧
    ({ atomicA with memAnswers := [.response [7] false] } : State).memAnswers.head? =
      some (.response [7] false) ∧ [(7 : Byte)].length ≠ 32 ∧ [(7 : Byte)] ≠ [] ∧
    [MemAnswer.served, .silent].tail.head? = some .silent := by decide

/-- Unit A sending to its own endpoint 5. -/
def selfA : State := atomicA.setReg 2 .targetCore 1

theorem test_witness_SelfMessageInAtomicMode : selfA.cfg.atomicMode = true ∧
    startReady selfA 2 ∧
    (∀ r ∈ [Field.mode, .bufferAddr, .bufferMessageCount, .bufferSize, .bufferWritePtr],
      selfA.readable 5 r = true) ∧
    (∀ t ∈ selfA.outstanding, t.ep ≠ 2 ∧ t.ep ≠ 5) ∧
    selfA.cfg.encodeNetworkAddress (selfA.reg 2 .targetCore).value
      (selfA.reg 2 .targetEndpoint).value = 0x15 ∧
    selfA.cfg.netCoreOf 0x15 = selfA.cfg.coreId ∧ selfA.cfg.netEpOf 0x15 = 5 ∧
    selfA.arrivalRefusal 5 = none ∧
    (selfA.setReg 5 .bufferMessageCount 2).arrivalRefusal 5 = some .bufferFull ∧
    selfA.arrivalRefusal 2 = some .notReceive ∧ selfA.arrivalRefusal 8 = some .epOutOfRange := by
  decide

theorem test_witness_StartKeepsEndpointRegisters :
    (∃ t, exec (.startOperation 2 0) unitA = .next t) ∧
    (∃ t, exec (.startOperation 2 0) (selfA.setReg 2 .messageSize 2) = .next t) :=
  ⟨exists_next (by decide), exists_next (by decide)⟩

theorem test_witness_TimedCommandFrame : unitA.cfg.atomicMode = false ∧
    unitA.cfg.opcodeOf 0x9 = 1 ∧ unitA.cfg.opcodeOf 0x16 = 2 ∧
    (∃ t, exec (decodeCommand unitA.cfg 0x9) unitA = .next t) ∧
    ∃ t, exec (decodeCommand unitA.cfg 0x16) unitA = .next t :=
  ⟨by decide, by decide, by decide, exists_next (by decide), exists_next (by decide)⟩

theorem test_witness_AdvanceKeepsSlot : unitA.regsFit ∧
    5 < unitA.endpoints.length ∧ 0 < unitA.cfg.slotSize ∧
    1 ≤ (unitA.reg 5 .bufferSize).value ∧
    (unitA.reg 5 .bufferAddr).value + (unitA.reg 5 .bufferSize).value * unitA.cfg.slotSize ≤
      2 ^ unitA.cfg.regWidth ∧
    (unitA.reg 5 .bufferMessageCount).value ≤ (unitA.reg 5 .bufferSize).value ∧
    (unitA.reg 5 .bufferWritePtr).value =
      (unitA.reg 5 .bufferAddr).value + 0 * unitA.cfg.slotSize ∧
    answers (andThen (fcAdvanceWrite 5 unitA) fun r =>
      if r.2 = .ack then .next r.1 else .fault .netInLength) = true ∧
    ((unitA.setReg 5 .bufferReadPtr 0x3040).reg 5 .bufferReadPtr).value =
      (unitA.reg 5 .bufferAddr).value + 1 * unitA.cfg.slotSize ∧
    answers (fcAdvanceRead 5 ((unitA.setReg 5 .bufferReadPtr 0x3040).setReg 5
      .bufferMessageCount 2)) = true := by decide

theorem test_witness_AdvancePeriod : unitA.regsFit ∧ 5 < unitA.endpoints.length ∧
    0 < unitA.cfg.slotSize ∧ 1 ≤ (unitA.reg 5 .bufferSize).value ∧
    (unitA.reg 5 .bufferAddr).value + (unitA.reg 5 .bufferSize).value * unitA.cfg.slotSize ≤
      2 ^ unitA.cfg.regWidth ∧
    (∀ f ∈ [Field.bufferAddr, .bufferSize, .bufferMessageCount, .bufferReadPtr, .bufferWritePtr],
      unitA.readable 5 f = true) ∧
    (unitA.reg 5 .bufferReadPtr).value = (unitA.reg 5 .bufferAddr).value ∧
    (unitA.reg 5 .bufferWritePtr).value = (unitA.reg 5 .bufferAddr).value ∧
    (unitA.reg 5 .bufferMessageCount).value + 2 ≤ (unitA.reg 5 .bufferSize).value ∧
    (unitA.setReg 5 .bufferMessageCount 2).regsFit ∧
    2 ≤ ((unitA.setReg 5 .bufferMessageCount 2).reg 5 .bufferMessageCount).value := by decide

theorem ringOk_unitA : ringOk unitA.cfg (unitA.ep 5) :=
  ⟨by decide, by decide, by decide, ⟨0, by decide, by decide⟩, ⟨0, by decide, by decide⟩⟩

theorem test_witness_RingInvariantKept :
    ringOk (withEvent atomicA (.regWrite .command 0x16)).cfg
      ((withEvent atomicA (.regWrite .command 0x16)).ep 5) ∧
    (∀ ev rest, (withEvent atomicA (.regWrite .command 0x16)).timeline = ev :: rest →
      ev.writesEndpoint atomicA.cfg 5 = false) ∧
    ∃ t, step (withEvent atomicA (.regWrite .command 0x16)) = .next t := by
  refine ⟨ringOk_unitA, fun ev rest h => ?_, exists_next (by decide)⟩
  injection h with h _
  rw [← h]
  rfl

theorem test_witness_TxReadDoneTimed : readingA.cfg.atomicMode = false ∧
    inFlight .mem .localTag 2 ∈ readingA.outstanding ∧
    (inFlight .mem .localTag 2).hasTag .mem .localTag 2 = true ∧
    readingA.activity 2 = .transmitting ctxA ∧
    (List.replicate 32 (7 : Byte)).length = ctxA.length := by decide

/-- Unit A in atomic mode, its local read in flight. -/
def readingAtomic : State := { readingA with cfg := atomicA.cfg }

/-- The same with a target of its own core. -/
def readingSelf : State := readingAtomic.setActivity 2 (.transmitting { ctxA with targetCore := 1 })

theorem test_witness_TxReadDoneAtomic : readingAtomic.cfg.valid = true ∧
    readingAtomic.cfg.atomicMode = true ∧ readingAtomic.shaped ∧
    inFlight .mem .localTag 2 ∈ readingAtomic.outstanding ∧
    (inFlight .mem .localTag 2).hasTag .mem .localTag 2 = true ∧
    readingAtomic.activity 2 = .transmitting ctxA ∧
    (List.replicate 32 (7 : Byte)).length = ctxA.length ∧ 1 ≤ ctxA.length ∧
    ctxA.length + 4 ≤ readingAtomic.cfg.maxMessageSize ∧
    readingAtomic.cfg.netCoreOf
      (readingAtomic.cfg.encodeNetworkAddress ctxA.targetCore ctxA.targetEp) ≠
        readingAtomic.cfg.coreId ∧
    readingAtomic.netAnswers = [] ∧
    ({ readingAtomic with netAnswers := [.ack] } : State).netAnswers = .ack :: [] := by decide

theorem test_witness_TxReadDoneAtomic_self : readingSelf.shaped ∧
    inFlight .mem .localTag 2 ∈ readingSelf.outstanding ∧
    readingSelf.activity 2 = .transmitting { ctxA with targetCore := 1 } ∧
    readingSelf.cfg.encodeNetworkAddress 1 5 = 0x15 ∧
    readingSelf.cfg.netCoreOf 0x15 = readingSelf.cfg.coreId ∧
    readingSelf.cfg.netEpOf 0x15 = 5 ∧ readingSelf.arrivalRefusal 5 = none ∧
    (∀ r ∈ [Field.mode, .bufferAddr, .bufferMessageCount, .bufferSize, .bufferWritePtr],
      readingSelf.readable 5 r = true) ∧
    (readingSelf.setReg 5 .bufferMessageCount 2).arrivalRefusal 5 = some .bufferFull ∧
    readingSelf.arrivalRefusal 2 = some .notReceive := by decide

theorem test_witness_TxContinuationsTimed : readingA.cfg.valid = true ∧
    readingA.cfg.atomicMode = false ∧
    (withPending readingA (.txIssueRead 2)).timeline = .run 1 :: [] ∧
    (withPending readingA (.txIssueRead 2)).activity 2 = .transmitting ctxA ∧
    (withPending readingA (.txIssueRead 2)).pending[1]? = some (.txIssueRead 2) ∧
    (withPending readingA (.txSend 2 [5])).pending[1]? = some (.txSend 2 [5]) := by decide

theorem test_witness_TxAnswerTimed : sendingA.cfg.atomicMode = false ∧
    inFlight .net .localTag 2 ∈ sendingA.outstanding ∧
    (inFlight .net .localTag 2).hasTag .net .localTag 2 = true ∧
    sendingA.activity 2 = .transmitting ctxA := by decide

theorem test_witness_TxAnswerAtomic :
    ({ sendingA with cfg := atomicA.cfg } : State).cfg.atomicMode = true ∧
    inFlight .net .localTag 2 ∈ ({ sendingA with cfg := atomicA.cfg } : State).outstanding ∧
    (inFlight .net .localTag 2).hasTag .net .localTag 2 = true ∧
    ({ sendingA with cfg := atomicA.cfg } : State).activity 2 = .transmitting ctxA := by decide

theorem test_witness_TxFinalStep : unitA.cfg.valid = true ∧
    (withPending unitA (.txFinal 2 .ack)).timeline = .run 1 :: [] ∧
    (withPending unitA (.txFinal 2 .ack)).pending[1]? = some (.txFinal 2 .ack) := by decide

theorem test_witness_FabricFaults :
    (∀ g ∈ unitA.outstanding, g.hasTag .mem .localTag 2 = false) ∧
    (∀ g ∈ readingA.outstanding, g.hasTag .net .localTag 2 = false) ∧
    (∀ g ∈ readingA.outstanding, g.hasTag .mem .forwardedTag 2 = false) ∧
    (inFlight .mem .localTag 2 ∈ readingA.outstanding ∧
      readingA.activity 2 = .transmitting ctxA ∧
      (List.replicate 31 (7 : Byte)).length ≠ ctxA.length) ∧
    msg2.length ≠ 5 ∧
    (withEvent unitA (.netIn ⟨0x35, 3, .read, [], r9⟩)).timeline =
      .netIn ⟨0x35, 3, .read, [], r9⟩ :: [] ∧
    (withEvent unitA (.netIn ⟨0x35, 3, .read, [], r9⟩)).cfg.valid = true ∧
    (withEvent readingA (.memResp ⟨.localTag, 2, [], true⟩)).timeline =
      .memResp ⟨.localTag, 2, [], true⟩ :: [] ∧
    (withEvent writingA (.memResp ⟨.forwardedTag, 5, [7], false⟩)).timeline =
      .memResp ⟨.forwardedTag, 5, [7], false⟩ :: [] ∧
    (withEvent sendingA (.netResp ⟨.forwardedTag, 2, .ack⟩)).timeline =
      .netResp ⟨.forwardedTag, 2, .ack⟩ :: [] := by decide

/-- Tags in flight for endpoints that are idle. -/
def strayA : State :=
  { unitA with
    outstanding := [inFlight .mem .localTag 2, inFlight .net .localTag 2,
      inFlight .mem .forwardedTag 5] }

theorem test_witness_SpuriousCompletionReported :
    (∀ x, strayA.activity 2 ≠ .transmitting x) ∧ (∀ x, strayA.activity 5 ≠ .receiving x) ∧
    inFlight .mem .localTag 2 ∈ strayA.outstanding ∧
    inFlight .net .localTag 2 ∈ strayA.outstanding ∧
    inFlight .mem .forwardedTag 5 ∈ strayA.outstanding :=
  ⟨fun x => by simp [show strayA.activity 2 = .idle by decide],
    fun x => by simp [show strayA.activity 5 = .idle by decide], by decide, by decide, by decide⟩

/-- The first check of an arriving message that fails, before the occupancy check (R241). -/
def arrivalCode (s : State) (f size : Nat) (data : Bytes) : Option ErrCode :=
  if s.cfg.endpointCount ≤ f then some ErrCode.epOutOfRange
  else if (s.reg f .mode).value = 0 then some .notReceive
  else if (s.reg f .mode).value ≠ 1 then some .invalidMode
  else if s.activity f ≠ .idle then some .epBusy
  else if size < 4 then some .malformed
  else if (data.getD 2 0).toNat + 256 * (data.getD 3 0).toNat = 0 ∨
      (data.getD 2 0).toNat + 256 * (data.getD 3 0).toNat ≠ size - 4 then some .malformed
  else if s.cfg.maxMessageSize < size then some .sizeLimit
  else none

theorem test_witness_ArrivalRejections :
    (∀ r ∈ [Field.mode, .bufferMessageCount, .bufferSize], unitA.readable 5 r = true) ∧
    strictA.readable 2 .mode = true ∧ strictA.readable 2 .bufferSize = false ∧
    arrivalCode strictA 2 6 msg2 = some .notReceive ∧
    5 = unitA.cfg.netEpOf 0x35 ∧ 8 = unitA.cfg.netEpOf 0x38 ∧
    arrivalCode unitA 8 6 msg2 = some .epOutOfRange ∧
    arrivalCode unitA 2 6 msg2 = some .notReceive ∧
    arrivalCode (unitA.setReg 5 .mode 5) 5 6 msg2 = some .invalidMode ∧
    arrivalCode writingA 5 6 msg2 = some .epBusy ∧
    arrivalCode unitA 5 3 [1, 2, 0] = some .malformed ∧
    arrivalCode unitA 5 4 [1, 2, 0, 0] = some .malformed ∧
    arrivalCode unitA 5 5 [1, 2, 2, 0, 7] = some .malformed ∧
    arrivalCode unitA 5 65 ([1, 2, 61, 0] ++ List.replicate 61 7) = some .sizeLimit ∧
    arrivalCode (unitA.setReg 5 .bufferMessageCount 2) 5 6 msg2 = none ∧
    (unitA.reg 5 .bufferSize).value ≤
      ((unitA.setReg 5 .bufferMessageCount 2).reg 5 .bufferMessageCount).value ∧
    arrivalCode unitA 5 64 ([1, 2, 60, 0] ++ List.replicate 60 7) = none := by decide

/-- Endpoint `f` accepts a message (R241). -/
abbrev arrivalReady (s : State) (f : Nat) : Prop :=
  s.shaped ∧ f < s.cfg.endpointCount ∧
  (∀ r ∈ [Field.mode, .bufferAddr, .bufferSize, .bufferMessageCount, .bufferWritePtr],
    s.readable f r = true) ∧
  (s.reg f .mode).value = 1 ∧ s.activity f = .idle ∧
  (s.reg f .bufferMessageCount).value < (s.reg f .bufferSize).value ∧
  ∀ t ∈ s.outstanding, t.ep ≠ f

theorem test_witness_ArrivalAcceptedTimed : unitA.cfg.atomicMode = false ∧
    arrivalReady unitA 5 ∧ 5 = unitA.cfg.netEpOf 0x35 ∧
    60 = (60 : Byte).toNat + 256 * (0 : Byte).toNat ∧
    60 = (List.replicate 60 (7 : Byte)).length ∧ 0 < 60 ∧ 4 + 60 ≤ unitA.cfg.maxMessageSize ∧
    1 = (1 : Byte).toNat + 256 * (0 : Byte).toNat ∧ 1 = [(7 : Byte)].length := by decide

theorem test_witness_ArrivalRunsWholeInAtomicMode : atomicA.cfg.atomicMode = true ∧
    arrivalReady atomicA 5 ∧ 5 = atomicA.cfg.netEpOf 0x35 ∧
    2 = (2 : Byte).toNat + 256 * (0 : Byte).toNat ∧ 2 = [(0xAA : Byte), 0xBB].length ∧
    4 + 2 ≤ atomicA.cfg.maxMessageSize := by decide

theorem test_witness_RxWriteDone :
    inFlight .mem .forwardedTag 5 ∈ writingA.outstanding ∧
    (inFlight .mem .forwardedTag 5).hasTag .mem .forwardedTag 5 = true ∧
    writingA.activity 5 = .receiving ctxB ∧ writingA.cfg.atomicMode = false ∧
    ({ writingA with cfg := atomicA.cfg } : State).cfg.atomicMode = true ∧
    (∀ r ∈ [Field.bufferAddr, .bufferSize, .bufferMessageCount, .bufferWritePtr],
      writingA.readable 5 r = true) ∧
    (writingA.reg 5 .bufferMessageCount).value < (writingA.reg 5 .bufferSize).value ∧
    ((writingA.setReg 5 .bufferMessageCount 2).reg 5 .bufferSize).value ≤
      ((writingA.setReg 5 .bufferMessageCount 2).reg 5 .bufferMessageCount).value := by decide

theorem test_witness_RxIssueWriteStep :
    (withPending writingA (.rxIssueWrite 5)).cfg.valid = true ∧
    (withPending writingA (.rxIssueWrite 5)).cfg.atomicMode = false ∧
    (withPending writingA (.rxIssueWrite 5)).timeline = .run 1 :: [] ∧
    (withPending writingA (.rxIssueWrite 5)).pending[1]? = some (.rxIssueWrite 5) ∧
    (withPending writingA (.rxIssueWrite 5)).activity 5 = .receiving ctxB ∧
    (withPending writingA (.rxIssueWrite 5)).readable 5 .bufferWritePtr = true ∧
    (withPending writingA (.rxIssueWrite 5)).mem.wf ∧
    ctxB.payload.length ≤ 2 ^ writingA.cfg.regWidth := by decide

theorem test_witness_RxFinishStep :
    (withPending writingA (.rxFinish 5)).cfg.valid = true ∧
    (withPending writingA (.rxFinish 5)).timeline = .run 1 :: [] ∧
    (withPending writingA (.rxFinish 5)).pending[1]? = some (.rxFinish 5) ∧
    (withPending writingA (.rxFinish 5)).activity 5 = .receiving ctxB ∧
    (∀ r ∈ [Field.bufferAddr, .bufferSize, .bufferMessageCount, .bufferWritePtr],
      writingA.readable 5 r = true) ∧
    (writingA.reg 5 .bufferMessageCount).value < (writingA.reg 5 .bufferSize).value ∧
    ((writingA.setReg 5 .bufferMessageCount 2).reg 5 .bufferSize).value ≤
      ((writingA.setReg 5 .bufferMessageCount 2).reg 5 .bufferMessageCount).value := by decide

theorem test_witness_ReceiveFrame : 5 = atomicA.cfg.netEpOf 0x35 ∧
    (∃ t, exec (.evRxMsg 0x35 6 msg2 r9) atomicA = .next t) ∧
    (∃ t, exec (.evRxUnsupported 0x35 r9) atomicA = .next t) ∧
    ∃ t, exec (.evRxWriteDone 5) writingA = .next t :=
  ⟨by decide, exists_next (by decide), exists_next (by decide), exists_next (by decide)⟩

theorem test_witness_NeverWrittenRegisters :
    (∃ t, exec (.evRxMsg 0x35 6 msg2 r9) atomicA = .next t) ∧
    ∃ t, exec (.incrementReadPointer 5 0) (unitA.setReg 5 .bufferMessageCount 1) = .next t :=
  ⟨exists_next (by decide), exists_next (by decide)⟩

theorem test_witness_NonStoringKeepMemory : unitA.cfg.atomicMode = false ∧
    (∃ t, exec (.evRxMsg 0x35 6 msg2 r9) unitA = .next t) ∧
    ∃ t, exec (.evTxAck 2) { sendingA with cfg := atomicA.cfg } = .next t :=
  ⟨by decide, exists_next (by decide), exists_next (by decide)⟩

/-- `selfA` with a message of two bytes. -/
def selfShort : State := selfA.setReg 2 .messageSize 2

/-- `selfShort` with its local read in flight. -/
def selfReading : State :=
  { selfShort.setActivity 2 (.transmitting ⟨0x2000, 2, 1, 5⟩) with
    outstanding := [inFlight .mem .localTag 2] }

theorem test_witness_StoringFrame : atomicA.mem.wf ∧
    (∃ t, exec (.evRxMsg 0x35 6 msg2 r9) atomicA = .next t) ∧
    selfReading.mem.wf ∧ (∃ t, exec (.evTxReadDone 2 [0xAA, 0xBB]) selfReading = .next t) ∧
    selfReading.activity 2 = .transmitting ⟨0x2000, 2, 1, 5⟩ ∧
    selfShort.mem.wf ∧ ∃ t, exec (.startOperation 2 0) selfShort = .next t :=
  ⟨by decide, exists_next (by decide), by decide, exists_next (by decide), by decide, by decide,
    exists_next (by decide)⟩

theorem test_witness_UnwrittenRegisterFaults : strictA.cfg.unwrittenFaults = true ∧
    3 < strictA.cfg.endpointCount ∧ (strictA.reg 3 .mode).written = false ∧
    strictA.cfg.netEpOf 0x33 = 3 ∧
    ((strictA.setReg 3 .mode 0).reg 3 .mode).written = true ∧
    ((strictA.setReg 3 .mode 0).reg 3 .messageSize).written = false ∧
    (strictA.setReg 3 .mode 0).activity 3 = .idle ∧
    (((strictA.setReg 3 .mode 0).setReg 3 .messageSize 60).setReg 3 .messageAddr 0).firstUnwritten
      3 [.messageAddr, .targetCore, .targetEndpoint] = some .targetCore ∧
    60 + 4 ≤ strictA.cfg.maxMessageSize ∧
    (strictA.setReg 3 .bufferAddr 0).firstUnwritten 3
      [.bufferAddr, .bufferSize, .bufferMessageCount, .bufferReadPtr] = some .bufferSize ∧
    ((strictA.setReg 3 .mode 1).setReg 3 .bufferMessageCount 0).arrivalUnwritten 3 =
      some .bufferSize ∧
    2 = (2 : Byte).toNat + 256 * (0 : Byte).toNat ∧ 2 = [(0xAA : Byte), 0xBB].length := by decide

/-- `strictA` in atomic mode, endpoint 2 sending to endpoint 3 of its own core, which receives and
has room. -/
def strictSelf : State :=
  { ((((strictA.setReg 2 .targetCore 1).setReg 2 .targetEndpoint 3).setReg 3 .mode 1).setReg 3
      .bufferMessageCount 0).setReg 3 .bufferSize 1 with
    cfg := { Config.ref with unwrittenFaults := true, atomicMode := true } }

/-- The same with its local read in flight. -/
def strictSelfReading : State :=
  { strictSelf.setActivity 2 (.transmitting ⟨0x2000, 32, 1, 3⟩) with
    outstanding := [inFlight .mem .localTag 2] }

theorem test_witness_UnwrittenRegisterFaults_atomic : strictSelf.cfg.valid = true ∧
    strictSelf.shaped ∧ strictSelf.activity 2 = .idle ∧ (strictSelf.reg 2 .mode).written = true ∧
    (strictSelf.reg 2 .messageSize).written = true ∧
    strictSelf.firstUnwritten 2 [.messageAddr, .targetCore, .targetEndpoint] = none ∧
    strictSelf.cfg.encodeNetworkAddress (strictSelf.reg 2 .targetCore).value
      (strictSelf.reg 2 .targetEndpoint).value = 0x13 ∧
    strictSelf.cfg.netCoreOf 0x13 = strictSelf.cfg.coreId ∧ strictSelf.cfg.netEpOf 0x13 = 3 ∧
    strictSelf.arrivalUnwritten 3 = some .bufferWritePtr ∧
    (strictSelf.setReg 3 .bufferWritePtr 0).arrivalUnwritten 3 = some .bufferAddr ∧
    strictSelfReading.shaped ∧ inFlight .mem .localTag 2 ∈ strictSelfReading.outstanding ∧
    strictSelfReading.activity 2 = .transmitting ⟨0x2000, 32, 1, 3⟩ ∧
    strictSelfReading.arrivalUnwritten 3 = some .bufferWritePtr ∧
    ({ strictSelf.setActivity 3 (.receiving ctxB) with
      outstanding := [inFlight .mem .forwardedTag 3] } : State).firstUnwritten 3
        [.bufferAddr, .bufferSize, .bufferMessageCount, .bufferWritePtr] = some .bufferAddr := by
  decide

theorem test_witness_UnwrittenRegisterFaults_receive :
    (withPending (strictA.setActivity 3 (.receiving ctxB)) (.rxIssueWrite 3)).cfg.valid = true ∧
    (withPending (strictA.setActivity 3 (.receiving ctxB)) (.rxIssueWrite 3)).activity 3 =
      .receiving ctxB ∧
    (withPending (strictA.setActivity 3 (.receiving ctxB)) (.rxIssueWrite 3)).pending[1]? =
      some (.rxIssueWrite 3) ∧
    ((withPending (strictA.setActivity 3 (.receiving ctxB)) (.rxIssueWrite 3)).reg 3
      .bufferWritePtr).written = false ∧
    (withPending (strictA.setActivity 3 (.receiving ctxB)) (.rxFinish 3)).pending[1]? =
      some (.rxFinish 3) ∧
    (withPending (strictA.setActivity 3 (.receiving ctxB)) (.rxFinish 3)).firstUnwritten 3
      [.bufferAddr, .bufferSize, .bufferMessageCount, .bufferWritePtr] = some .bufferAddr := by
  decide

theorem test_witness_MemoryFormKept :
    (withEvent atomicA (.netIn ⟨0x35, 6, .write, msg2, r9⟩)).memOk ∧
    ∃ t, step (withEvent atomicA (.netIn ⟨0x35, 6, .write, msg2, r9⟩)) = .next t :=
  ⟨by decide, exists_next (by decide)⟩

theorem test_witness_RegisterWidthKept :
    (withEvent atomicA (.netIn ⟨0x35, 6, .write, msg2, r9⟩)).regsFit ∧
    ∃ t, step (withEvent atomicA (.netIn ⟨0x35, 6, .write, msg2, r9⟩)) = .next t :=
  ⟨by decide, exists_next (by decide)⟩

theorem test_witness_ShapeAndQuietKept :
    (withEvent atomicA (.netIn ⟨0x35, 6, .write, msg2, r9⟩)).shaped ∧
    (withEvent atomicA (.netIn ⟨0x35, 6, .write, msg2, r9⟩)).atomicQuiet ∧
    ∃ t, step (withEvent atomicA (.netIn ⟨0x35, 6, .write, msg2, r9⟩)) = .next t :=
  ⟨by decide, fun _ => rfl, exists_next (by decide)⟩

/-- `readingA` when the memory's answer comes next. -/
def answeredA : State :=
  withEvent readingA (.memResp ⟨.localTag, 2, List.replicate 32 7, false⟩)

theorem answeredA_tracked : answeredA.tracked := by
  refine ⟨fun e => ?_, by decide, ?_⟩
  · match e with
    | 0 | 1 | 2 | 3 | 4 | 5 | 6 | 7 => decide
    | n + 8 =>
      simp [State.txTokens, State.rxTokens, answeredA, withEvent, readingA, inFlight, unitA,
        State.reset, State.ofConfig, State.activity, State.ep, State.setActivity, State.modifyEp,
        Endpoint.reset, Activity.tokens]
  · intro t ht _ _ x hx
    obtain rfl : t = inFlight .mem .localTag 2 := by
      simpa [answeredA, withEvent, readingA] using ht
    have h2 : answeredA.activity 2 = .transmitting ctxA := by decide
    have hx' : Activity.transmitting ctxA = .transmitting x := h2.symm.trans hx
    injection hx' with hx'
    rw [← hx']
    rfl

theorem test_witness_TrackingKept : answeredA.shaped ∧ answeredA.tracked ∧
    ∃ t, step answeredA = .next t :=
  ⟨by decide, answeredA_tracked, exists_next (by decide)⟩

theorem test_witness_SpuriousCompletionUnreachable : answeredA.shaped ∧ answeredA.tracked ∧
    ∃ t, step answeredA = .next t := test_witness_TrackingKept

theorem test_witness_ReportsOnlyAppended :
    ∃ t, step (State.reset.withFetchWord 64 0x7) = .next t := exists_next (by decide)

theorem test_witness_FaultsComeFromFabric :
    (withEvent readingA (.memServe .localTag 2)).shaped ∧
    (withEvent readingA (.memServe .localTag 2)).tracked ∧
    (withEvent readingA (.memServe .localTag 2)).cfg.unwrittenFaults = false ∧
    (∀ d failed, .response d failed ∉ (withEvent readingA (.memServe .localTag 2)).memAnswers) ∧
    ∀ ev rest, (withEvent readingA (.memServe .localTag 2)).timeline = ev :: rest →
      ev.fromFabric = false := by
  refine ⟨by decide, answeredA_tracked, by decide, fun _ _ h => (by cases h), fun ev rest h => ?_⟩
  injection h with h _
  rw [← h]
  rfl

theorem test_witness_TransmitModesAgree : unitA.cfg.atomicMode = false ∧ unitA.pending = [] ∧
    startReady unitA 2 ∧
    decodeCommand unitA.cfg (0x9 % 2 ^ unitA.cfg.regWidth) = .startOperation 2 0 ∧
    unitA.cfg.netCoreOf (unitA.cfg.encodeNetworkAddress (unitA.reg 2 .targetCore).value
      (unitA.reg 2 .targetEndpoint).value) ≠ unitA.cfg.coreId := by decide

theorem test_witness_ReceiveModesAgree : unitA.cfg.valid = true ∧ unitA.shaped ∧
    unitA.cfg.atomicMode = false ∧ unitA.pending = [] ∧ 5 = unitA.cfg.netEpOf 0x35 ∧
    msg2.length = 6 ∧
    (∀ r ∈ [Field.mode, .bufferAddr, .bufferSize, .bufferMessageCount, .bufferWritePtr],
      unitA.readable 5 r = true) ∧
    ∀ t ∈ unitA.outstanding, t.ep ≠ 5 := by decide

/-- Unit A and unit B of spec/95_test_vectors.md on one network. -/
def twoUnits : System :=
  systemOf [unitA, { unitA with cfg := { Config.ref with coreId := 3 } }]

/-- `twoUnits` with a request to core 3 and an answer to core 1 on the way. -/
def busyNetwork : System :=
  { twoUnits with
    flights := [⟨0, 7, ⟨0x35, 6, msg2, .localTag, 2⟩⟩], answers := [⟨0, 2, .ack⟩] }

theorem test_witness_NetworkFindsUnit : busyNetwork.valid = true ∧
    (busyNetwork.units[1]?.map fun s => s.cfg.coreId) = some 3 ∧
    3 < 2 ^ (Config.ref.regWidth - Config.ref.netEpBits) ∧ 15 < 2 ^ Config.ref.netEpBits ∧
    (busyNetwork.flights[0]?.map fun x => x.req.addr) =
      some (Config.ref.encodeNetworkAddress 3 5) ∧
    (busyNetwork.answers[0]?.map fun x => x.origin) = some 0 := by decide

/-! ### Turns of a system -/

/-- What the next system holds. -/
def lookSystem {α : Type} (x : Ans System) (g : System → α) : Option α :=
  match x with
  | .next t => some (g t)
  | _ => none

/-- Unit A in atomic mode about to write START of a two-byte message, unit B in the given mode, and
a request to an absent core stuck in front. -/
def startSystem (peerAtomic : Bool) : System :=
  { systemOf [
      withEvent (atomicA.setReg 2 .messageSize 2) (.regWrite .command 0x9),
      { unitA with cfg := { Config.ref with coreId := 3, atomicMode := peerAtomic } }] with
    flights := [⟨1, 0, ⟨0x95, 6, msg2, .localTag, 0⟩⟩]
    nextNumber := 1 }

/-- What is seen of a system: COMMAND, STATUS, the state of endpoint 2 and the count of endpoint 5
of each unit, and what the network still carries. -/
structure Outcome where
  units : List (Nat × Nat × Activity × Nat)
  flights : Nat
  waiting : List Waiting
  answers : List Answer
  deriving DecidableEq

/-- What is seen of this system. -/
def outcome (y : System) : Outcome where
  units := y.units.map fun u =>
    (u.command, u.status, u.activity 2, (u.reg 5 .bufferMessageCount).value)
  flights := y.flights.length
  waiting := y.waiting
  answers := y.answers

/-- R351, R254, U8: a stuck request does not keep an atomic START from ending in its own turn. -/
theorem test_atomic_turn :
    (startSystem true).valid = true ∧
    lookSystem (systemStep (.unit 0) (startSystem true)) outcome =
      some ⟨[(0, 0, .idle, 0), (0, 0, .idle, 1)], 1, [], []⟩ := by decide

/-- R351: nor does a peer that runs in timed mode (log 13). -/
theorem test_atomic_turn_timed_peer :
    lookSystem (systemStep (.unit 0) (startSystem false)) outcome =
      some ⟨[(0, 0, .idle, 0), (0, 0, .idle, 1)], 1, [], []⟩ := by decide

/-- R346: a unit's answer to its own message is no answer to another unit's delivery, whatever the
number of that delivery. -/
theorem test_own_reply_is_no_answer :
    lookSystem (systemStep (.unit 0)
        { systemOf [withEvent (selfA.setReg 2 .messageSize 2) (.regWrite .command 0x9)] with
          waiting := [⟨0, 2, 0, 4⟩] }) outcome =
      some ⟨[(0, 0, .idle, 1)], 0, [⟨0, 2, 0, 4⟩], []⟩ := by decide

/-- U8, R351: with no answer of the memory to the write, an own message stays in flight, and the
network carries nothing. -/
theorem test_own_message_unanswered :
    lookSystem (systemStep (.unit 0)
        (systemOf [{ withEvent (selfA.setReg 2 .messageSize 2) (.regWrite .command 0x9) with
          memAnswers := [.served, .silent] }])) outcome =
      some ⟨[(9, 1, .transmitting ⟨0x2000, 2, 1, 5⟩, 0)], 0, [], []⟩ := by decide

/-- Unit A in atomic mode, waiting for the memory's answer to the write of its own message. -/
def lateSelf : State :=
  { (atomicA.setActivity 2 (.transmitting ⟨0x2000, 2, 1, 5⟩)).setActivity 5
      (.receiving ⟨1, 2, 2, [0xAA, 0xBB], .own 2⟩) with
    status := 1
    outstanding := [inFlight .net .localTag 2, inFlight .mem .forwardedTag 5]
    timeline := [.memServe .forwardedTag 5] }

/-- R351, D44: when it comes, the acknowledgment goes back to the sender. -/
theorem test_own_message_answered_late :
    lookSystem (systemStep (.unit 0) (systemOf [lateSelf])) outcome =
      some ⟨[(0, 1, .transmitting ⟨0x2000, 2, 1, 5⟩, 1)], 0, [], [⟨0, 2, .ack⟩]⟩ := by decide

/-- The unit of `startSystem` that takes its turn, after its step. -/
def startedA : Option State :=
  (startSystem true).units[0]?.bind fun s =>
    match step s with
    | .next t => some t
    | _ => none

/-- The request it has issued. -/
def startedReq : NetReq := ⟨0x35, 6, [1, 2, 2, 0, 0, 0], .localTag, 2⟩

theorem test_witness_NetworkFindsUnit_turn :
    (startedA.map fun t => (t.netInOut, t.netOut)) = some ([], [startedReq]) ∧
    (startedA.map fun t => t.outstanding.any fun g => g.hasTag .net .localTag 2) = some true ∧
    unitOf (startSystem true) 0x35 = some 1 ∧ unitOf (startSystem true) 0x95 = none ∧
    ((startSystem true).units[1]?.bind fun p =>
      look (step (putEvent (.netIn ⟨0x35, 6, .write, startedReq.data, .network 1⟩) p))
        fun q => (q.netOut, q.netInOut)) = some ([], [⟨.network 1, .ack⟩]) ∧
    (startedA.bind fun t => look (step (putEvent (.netResp ⟨.localTag, 2, .ack⟩) t))
      fun u => (u.netOut, u.netInOut)) = some ([startedReq], []) ∧
    ∀ w ∈ (startSystem true).waiting, w.number < (startSystem true).nextNumber := by decide

/-- U4, R78: a CPU write of one byte under a read in flight makes every byte of the read free. -/
theorem test_raced_read :
    servedBytes Config.ref [] 4 ⟨.mem, .localTag, 2, 0x2000, 2, [(0x2001, 1)]⟩ =
      [Config.freeByte 4, Config.freeByte 5] := rfl

end Sys2Proof.Tests
end

namespace Sys2Proof.Machine

/-! ### What a step is made of

Every step is a chain of the named updates of the state. An invariant that each single update keeps
is therefore kept by every step (`step_keeps`), with no second walk through the operations. -/

/-- One update of the state, by the operation that makes it. -/
inductive Update (s : State) : State → Prop where
  | setReg (e : Nat) (f : Field) (v : Nat) : Update s (s.setReg e f v)
  | setActivity (e : Nat) (a : Activity) : Update s (s.setActivity e a)
  | setCommand (v : Nat) : Update s (s.setCommand v)
  | setStatus (v : Nat) : Update s (s.setStatus v)
  | writeMem (a : Nat) (bs : Bytes) : Update s (s.writeMem a bs)
  | raise (o : Origin) (k : ErrCode) (e d : Nat) : Update s (s.raise o k e d)
  | respondNet (r : Reply) (st : NetStatus) : Update s (s.respondNet r st)
  | respondAccess (r : AccessResp) : Update s (s.respondAccess r)
  | issueMem (r : MemReq) : Update s (s.issueMem r)
  | issueNet (r : NetReq) : Update s (s.issueNet r)
  | dropTag (p : Port) (d : Disc) (e : Nat) :
      Update s { s with outstanding := s.outstanding.filter (fun x => !x.hasTag p d e) }
  | markRaced (span : Nat × Nat) : Update s (s.markRaced span)
  /-- Only in timed mode does a continuation become pending (R352). -/
  | schedule (k : Continuation) (timed : s.cfg.atomicMode = false) :
      Update s { s with pending := s.pending ++ [k] }
  | unschedule (k : Nat) : Update s { s with pending := s.pending.eraseIdx k }
  | setTimeline (l : List Event) : Update s { s with timeline := l }
  | setNetAnswers (l : List NetStatus) : Update s { s with netAnswers := l }
  | setMemAnswers (l : List MemAnswer) : Update s { s with memAnswers := l }
  | drawFree (n : Nat) : Update s { s with freeCount := s.freeCount + n }

/-- A chain of updates. -/
abbrev Updates : State → State → Prop := Relation.ReflTransGen Update

/-- Where an outcome is a next state, a chain of updates leads there from `s`. -/
structure ByUpdates (s : State) (x : Ans State) : Prop where
  updates : ∀ t, x = .next t → Updates s t

theorem byUpdates_next {s t : State} (h : Updates s t) : ByUpdates s (.next t) := by
  refine ⟨?_⟩
  rintro _ ⟨⟩
  exact h

@[simp] theorem byUpdates_fault (s : State) (r : Fault) : ByUpdates s (.fault r) :=
  ⟨by rintro _ ⟨⟩⟩

@[simp] theorem byUpdates_refused (s : State) (r : Refusal) : ByUpdates s (.refused r) :=
  ⟨by rintro _ ⟨⟩⟩

@[simp] theorem byUpdates_self (s : State) : ByUpdates s (.next s) := byUpdates_next .refl

theorem Update.byUpdates {s t : State} (h : Update s t) : ByUpdates s (.next t) :=
  byUpdates_next (.single h)

theorem ByUpdates.after {s t : State} {x : Ans State} (hx : ByUpdates t x) (h : Updates s t) :
    ByUpdates s x :=
  ⟨fun u hu => h.trans (hx.updates u hu)⟩

/-- Updates behind one update. -/
theorem ByUpdates.afterOne {s t : State} {x : Ans State} (hx : ByUpdates t x) (h : Update s t) :
    ByUpdates s x :=
  hx.after (.single h)

/-- A value read first changes nothing. -/
theorem byUpdates_andThen {α : Type} {s : State} {x : Ans α} {f : α → Ans State}
    (h : ∀ a, x = .next a → ByUpdates s (f a)) : ByUpdates s (andThen x f) := by
  refine ⟨fun t ht => ?_⟩
  obtain ⟨a, ha, hf⟩ := andThen_eq_next.1 ht
  exact (h a ha).updates t hf

/-- Updates, then the updates of what follows. -/
theorem ByUpdates.andThen {s : State} {x : Ans State} {f : State → Ans State}
    (hx : ByUpdates s x) (hf : ∀ t, ByUpdates t (f t)) : ByUpdates s (andThen x f) :=
  byUpdates_andThen fun a ha => (hf a).after (hx.updates a ha)

/-! ### The shared operations -/

theorem takeTag_byUpdates (p : Port) (d : Disc) (e : Nat) (s : State) :
    ByUpdates s (takeTag p d e s) := by
  refine ⟨fun t h => ?_⟩
  obtain ⟨-, rfl⟩ := takeTag_eq_next h
  exact .single (.dropTag p d e)

theorem sched_byUpdates (k : Continuation) {now : State → Ans State} {s : State}
    (h : ByUpdates s (now s)) : ByUpdates s (sched k now s) := by
  cases hm : s.cfg.atomicMode with
  | true => rwa [sched_atomic hm]
  | false =>
    rw [sched_timed hm]
    exact (Update.schedule k hm).byUpdates

theorem memAnswered_byUpdates (d : Disc) (e : Nat) (bytes : Bytes)
    {done : Bytes → State → Ans State} (h : ∀ data t, ByUpdates t (done data t)) (s : State) :
    ByUpdates s (memAnswered d e bytes done s) := by
  refine ⟨fun t ht => ?_⟩
  obtain ⟨data, ms, -, hd⟩ | ⟨-, rfl⟩ := memAnswered_eq_next ht
  · exact ((h data _).afterOne (.setMemAnswers ms)).updates t hd
  · exact .single (.setMemAnswers _)

theorem fcAdvanceRead_byUpdates (e : Nat) (s : State) : ByUpdates s (fcAdvanceRead e s) := by
  refine ⟨fun t h => ?_⟩
  obtain ⟨-, rfl⟩ | ⟨-, rfl⟩ := fcAdvanceRead_eq_next h
  · exact .single (.raise ..)
  · exact .tail (.single (.setReg ..)) (.setReg ..)

theorem fcAdvanceWrite_updates {e : Nat} {s : State} {x : State × NetStatus}
    (h : fcAdvanceWrite e s = .next x) : Updates s x.1 := by
  obtain ⟨-, rfl⟩ | ⟨-, rfl⟩ := fcAdvanceWrite_eq_next h
  · exact .single (.raise ..)
  · exact .tail (.single (.setReg ..)) (.setReg ..)

/-- After a request is issued: the memory's part in atomic mode (R351), nothing in timed mode. -/
theorem request_byUpdates (d : Disc) (e : Nat) (bytes : Bytes) {done : Bytes → State → Ans State}
    (h : ∀ data t, ByUpdates t (done data t)) (s : State) :
    ByUpdates s (if s.cfg.atomicMode then memAnswered d e bytes done s else .next s) := by
  split
  · exact memAnswered_byUpdates d e bytes h s
  · simp

/-! ### The receive sequencer -/

theorem rxReject_byUpdates (reply : Reply) (k : ErrCode) (f : Nat) (s : State) :
    ByUpdates s (.next (rxReject reply k f s)) :=
  byUpdates_next (.tail (.single (.respondNet ..)) (.raise ..))

theorem rxFinish_byUpdates (f : Nat) (s : State) : ByUpdates s (rxFinish f s) := by
  unfold rxFinish
  split
  · exact byUpdates_andThen fun r hr => byUpdates_next
      (.tail (.tail (fcAdvanceWrite_updates hr) (.respondNet ..)) (.setActivity ..))
  · simp

theorem rxWriteDone_byUpdates (f : Nat) (s : State) : ByUpdates s (rxWriteDone f s) := by
  refine (takeTag_byUpdates ..).andThen fun t => ?_
  split
  · exact sched_byUpdates _ (rxFinish_byUpdates f t)
  · exact (Update.raise ..).byUpdates

theorem rxWriteResponse_byUpdates (f : Nat) (data : Bytes) (s : State) :
    ByUpdates s (rxWriteResponse f data s) := by
  unfold rxWriteResponse
  split
  · exact rxWriteDone_byUpdates f s
  · simp

theorem rxIssueWrite_byUpdates (f : Nat) (s : State) : ByUpdates s (rxIssueWrite f s) := by
  unfold rxIssueWrite
  split
  · exact byUpdates_andThen fun wptr _ =>
      (request_byUpdates _ _ _ (rxWriteResponse_byUpdates f) _).after
        (.tail (.single (.issueMem _)) (.writeMem wptr _))
  · simp

theorem rxAccept_byUpdates (f : Nat) (c : RxCtx) (s : State) : ByUpdates s (rxAccept f c s) :=
  (sched_byUpdates _ (rxIssueWrite_byUpdates f _)).afterOne (.setActivity ..)

theorem rxMessage_byUpdates (f size : Nat) (data : Bytes) (reply : Reply) (s : State) :
    ByUpdates s (rxMessage f size data reply s) := by
  unfold rxMessage
  split
  · exact rxReject_byUpdates ..
  · split_ifs
    · exact rxReject_byUpdates ..
    · exact rxReject_byUpdates ..
    · refine byUpdates_andThen fun occ _ => byUpdates_andThen fun cap _ => ?_
      split_ifs
      · exact rxReject_byUpdates ..
      · exact rxAccept_byUpdates ..

theorem rxArrive_byUpdates (addr size : Nat) (data : Bytes) (reply : Reply) (s : State) :
    ByUpdates s (rxArrive addr size data reply s) := by
  unfold rxArrive
  extract_lets f
  split
  · exact rxReject_byUpdates ..
  · refine byUpdates_andThen fun m _ => ?_
    split_ifs
    · exact rxReject_byUpdates ..
    · exact rxReject_byUpdates ..
    · exact rxReject_byUpdates ..
    · exact rxMessage_byUpdates ..

theorem execEvRxMsg_byUpdates (addr size : Nat) (data : Bytes) (reply : Reply) (s : State) :
    ByUpdates s (execEvRxMsg addr size data reply s) := by
  unfold execEvRxMsg
  split
  · exact rxArrive_byUpdates ..
  · simp

/-! ### The transmit sequencer -/

theorem txFinal_updates (e : Nat) (st : NetStatus) (s : State) : Updates s (txFinal e st s) := by
  have h : Updates s
      (((s.setCommand Config.idleCommand).setStatus statusIdle).setActivity e .idle) :=
    .tail (.tail (.single (.setCommand _)) (.setStatus _)) (.setActivity ..)
  cases st with
  | ack => exact h
  | reject k => exact h.tail (.raise ..)

theorem txResponded_byUpdates (e : Nat) (st : NetStatus) (s : State) :
    ByUpdates s (txResponded e st s) := by
  refine (takeTag_byUpdates ..).andThen fun t => ?_
  split
  · exact sched_byUpdates _ (byUpdates_next (txFinal_updates e st t))
  · exact (Update.raise ..).byUpdates

theorem netAnswer_byUpdates (e : Nat) (r : NetReq) (s : State) :
    ByUpdates s (netAnswer e r s) := by
  unfold netAnswer
  split_ifs
  · refine (rxArrive_byUpdates ..).andThen fun t => ?_
    split
    · exact txResponded_byUpdates ..
    · simp
  · split
    · exact (txResponded_byUpdates ..).afterOne (.setNetAnswers _)
    · simp
  · simp

theorem txSend_byUpdates (e : Nat) (msg : Bytes) (s : State) : ByUpdates s (txSend e msg s) := by
  unfold txSend
  split
  · exact (netAnswer_byUpdates ..).afterOne (.issueNet _)
  · simp

theorem txReadDone_byUpdates (e : Nat) (d : Bytes) (s : State) :
    ByUpdates s (txReadDone e d s) := by
  refine (takeTag_byUpdates ..).andThen fun t => ?_
  split
  · split
    · exact sched_byUpdates _ (txSend_byUpdates ..)
    · simp
  · exact (Update.raise ..).byUpdates

theorem txIssueRead_byUpdates (e : Nat) (s : State) : ByUpdates s (txIssueRead e s) := by
  unfold txIssueRead
  split
  · exact (request_byUpdates _ _ _ (txReadDone_byUpdates e) _).afterOne (.issueMem _)
  · simp

theorem txAccept_byUpdates (e : Nat) (s : State) : ByUpdates s (txAccept e s) :=
  byUpdates_andThen fun _ _ => (sched_byUpdates _ (txIssueRead_byUpdates e _)).after
    (.tail (.single (.setStatus _)) (.setActivity ..))

/-! ### The executor and the dispatch -/

theorem inRange_byUpdates {e : Nat} {s : State} {k : Ans State} (h : ByUpdates s k) :
    ByUpdates s (inRange e s k) := by
  unfold inRange
  split
  · exact (Update.raise ..).byUpdates
  · exact h

theorem startOn_byUpdates (e : Nat) (s : State) : ByUpdates s (startOn e s) := by
  refine byUpdates_andThen fun m _ => ?_
  split_ifs
  · exact (Update.raise ..).byUpdates
  · exact (Update.raise ..).byUpdates
  · exact (Update.raise ..).byUpdates
  · refine byUpdates_andThen fun len _ => ?_
    split
    · exact (Update.raise ..).byUpdates
    · exact txAccept_byUpdates e s

theorem exec_byUpdates (i : Instr) (s : State) : ByUpdates s (exec i s) := by
  cases i with
  | idle e off => exact inRange_byUpdates (byUpdates_self s)
  | startOperation e off => exact inRange_byUpdates (startOn_byUpdates e s)
  | incrementReadPointer e off => exact inRange_byUpdates (fcAdvanceRead_byUpdates e s)
  | invalidOpcode op e off => exact inRange_byUpdates (Update.raise ..).byUpdates
  | evTxReadDone e data => exact txReadDone_byUpdates e data s
  | evTxAck e => exact txResponded_byUpdates e .ack s
  | evTxNack e k => exact txResponded_byUpdates e (.reject k) s
  | evRxMsg addr size data reply => exact execEvRxMsg_byUpdates addr size data reply s
  | evRxUnsupported addr reply => exact rxReject_byUpdates ..
  | evRxWriteDone f => exact rxWriteDone_byUpdates f s

theorem executeAndRespond_byUpdates (s : State) : ByUpdates s (executeAndRespond s) :=
  (exec_byUpdates _ s).andThen fun _ => (Update.respondAccess _).byUpdates

theorem atPort_byUpdates (x : Stimulus) (s : State) : ByUpdates s (atPort x s) := by
  unfold atPort
  split
  · exact exec_byUpdates _ s
  · next r _ => cases r <;> simp [stopOf]

/-! ### Register access -/

theorem accessDone_byUpdates (r : AccessResp) (s : State) : ByUpdates s (accessDone r s) :=
  sched_byUpdates _ (Update.respondAccess r).byUpdates

theorem storeReg_update (n : RegName) (v : Nat) (s : State) : Update s (storeReg n v s) := by
  cases n with
  | command => exact .setCommand v
  | status => exact .setStatus v
  | endpoint e f => exact .setReg e f v

theorem regWrite_byUpdates (n : RegName) (v : Nat) (s : State) :
    ByUpdates s (regWrite n v s) := by
  unfold regWrite
  split_ifs
  · exact (sched_byUpdates _ (executeAndRespond_byUpdates _)).afterOne (storeReg_update n v s)
  · exact (accessDone_byUpdates ..).afterOne (storeReg_update n v s)
  · simp

theorem regRead_byUpdates (n : RegName) (s : State) : ByUpdates s (regRead n s) := by
  unfold regRead
  split
  · cases n with
    | command => exact accessDone_byUpdates ..
    | status => exact accessDone_byUpdates ..
    | endpoint e f =>
      dsimp only
      split
      · exact accessDone_byUpdates ..
      · exact (accessDone_byUpdates ..).afterOne (.drawFree 1)
  · simp

theorem atExternal_byUpdates (addr width : Nat) {access : RegName → Ans State} {s : State}
    (h : ∀ n, ByUpdates s (access n)) : ByUpdates s (atExternal addr width access s) := by
  unfold atExternal
  split
  · simp
  · split
    · exact h _
    · simp

/-! ### Events and the step -/

theorem memServe_byUpdates (d : Disc) (e : Nat) (s : State) : ByUpdates s (memServe d e s) := by
  unfold memServe
  split
  · simp
  · next t _ =>
    cases d with
    | localTag => exact (atPort_byUpdates ..).afterOne (.drawFree t.size)
    | forwardedTag => exact atPort_byUpdates ..

theorem continueWith_byUpdates (k : Continuation) (s : State) :
    ByUpdates s (continueWith k s) := by
  cases k with
  | execute => exact executeAndRespond_byUpdates s
  | respond r => exact (Update.respondAccess r).byUpdates
  | txIssueRead e => exact txIssueRead_byUpdates e s
  | txSend e msg => exact txSend_byUpdates e msg s
  | txFinal e st => exact byUpdates_next (txFinal_updates e st s)
  | rxIssueWrite f => exact rxIssueWrite_byUpdates f s
  | rxFinish f => exact rxFinish_byUpdates f s

theorem runPending_byUpdates (k : Nat) (s : State) : ByUpdates s (runPending k s) := by
  unfold runPending
  split
  · exact (continueWith_byUpdates _ _).afterOne (.unschedule k)
  · simp

theorem handleEvent_byUpdates (ev : Event) (s : State) : ByUpdates s (handleEvent ev s) := by
  cases ev with
  | regWrite n v => exact regWrite_byUpdates n v s
  | regRead n => exact regRead_byUpdates n s
  | extWrite a w v => exact atExternal_byUpdates a w fun n => regWrite_byUpdates n v s
  | extRead a w => exact atExternal_byUpdates a w fun n => regRead_byUpdates n s
  | memResp r => exact atPort_byUpdates _ s
  | memServe d e => exact memServe_byUpdates d e s
  | netResp r => exact atPort_byUpdates _ s
  | netIn t => exact atPort_byUpdates _ s
  | cpuWrite a bs => exact byUpdates_next (.tail (.single (.writeMem a bs)) (.markRaced _))
  | run k => exact runPending_byUpdates k s

/-- Every step is a chain of updates. -/
theorem step_byUpdates (s : State) : ByUpdates s (step s) := by
  unfold step
  split
  · unfold nextEvent
    split
    · exact (handleEvent_byUpdates ..).afterOne (.setTimeline _)
    · exact runPending_byUpdates 0 s
  · simp

/-- What every update keeps, a chain of them keeps. -/
theorem Updates.keeps {P : State → Prop} (hP : ∀ s t, Update s t → P s → P t) {s t : State}
    (h : Updates s t) (hs : P s) : P t := by
  induction h with
  | refl => exact hs
  | tail _ hu ih => exact hP _ _ hu ih

/-- What every update keeps, every step keeps. -/
theorem step_keeps {P : State → Prop} (hP : ∀ s t, Update s t → P s → P t) {s t : State}
    (h : step s = .next t) (hs : P s) : P t :=
  ((step_byUpdates s).updates t h).keeps hP hs

/-! ### The shape of the state -/

/-- No update touches the configuration (R9). -/
theorem Update.cfg_eq {s t : State} (h : Update s t) : t.cfg = s.cfg := by
  cases h <;> rfl

/-- Endpoints are changed in place, never added or taken away (R30). -/
theorem Update.length_endpoints {s t : State} (h : Update s t) :
    t.endpoints.length = s.endpoints.length := by
  cases h with
  | setReg | setActivity => simp
  | _ => rfl

theorem Update.keeps_shaped {s t : State} (h : Update s t) (hs : s.shaped) : t.shaped := by
  rw [State.shaped, h.cfg_eq, h.length_endpoints, hs]

/-- In atomic mode nothing becomes pending (R44, R351). -/
theorem Update.keeps_atomicQuiet {s t : State} (h : Update s t) (hs : s.atomicQuiet) :
    t.atomicQuiet := by
  intro ha
  have hq : s.pending = [] := hs (h.cfg_eq ▸ ha)
  cases h with
  | schedule k timed => exact absurd ha (by simp [timed])
  | unschedule k => simp [hq]
  | _ => exact hq

/-- No step changes the configuration (R9). -/
theorem step_cfg_eq {s t : State} (h : step s = .next t) : t.cfg = s.cfg :=
  step_keeps (P := fun u => u.cfg = s.cfg) (fun _ _ hu hs => hu.cfg_eq.trans hs) h rfl

/-- Settles O53: every step is a chain of updates, and each of them keeps all three. -/
theorem shapeAndQuietKept : Obligations.ShapeAndQuietKept := fun _ _ h =>
  ⟨step_cfg_eq h, step_keeps (fun _ _ => Update.keeps_shaped) h,
    step_keeps (fun _ _ => Update.keeps_atomicQuiet) h⟩

/-! ### Construction -/

/-- Construction accepts a valid configuration (R10). -/
theorem construct_of_valid {c : Config} (h : c.valid = true) :
    State.construct c = some (State.ofConfig c) := if_pos h

/-- Construction refuses every other configuration (R305). -/
theorem construct_of_not_valid {c : Config} (h : ¬ c.valid = true) :
    State.construct c = none := if_neg h

/-- A state whose configuration is not valid takes no step (log 25). -/
theorem step_of_not_valid {s : State} (h : ¬ s.cfg.valid = true) :
    step s = .refused .badConfiguration := if_neg h

/-- Settles O14: the constraints written out are those the model's check makes, one by one
(`Config.valid_iff`), and construction and step both branch on that check. -/
theorem badConfigurationRefused : Obligations.BadConfigurationRefused := by
  intro c ok hok
  have hvalid : ok ↔ c.valid = true := hok.trans (Config.valid_iff c).symm
  constructor
  · intro h
    exact ⟨State.ofConfig c, construct_of_valid (hvalid.1 h), rfl⟩
  · intro h
    have hc : ¬ c.valid = true := fun hv => h (hvalid.2 hv)
    refine ⟨construct_of_not_valid hc, ?_⟩
    rintro s rfl
    exact step_of_not_valid hc

end Sys2Proof.Machine

namespace Sys2Proof

/-! ### Packed command words (R101, R102) -/

/-- Three fields packed low to high, as a sum. -/
theorem packed_eq_sum {a b op ep off : Nat} (hop : op < 2 ^ a) (hep : ep < 2 ^ b) :
    op ||| (ep <<< a) ||| (off <<< (a + b)) = op + 2 ^ a * (ep + 2 ^ b * off) := by
  have hlow : op ||| ep <<< a = op + 2 ^ a * ep := by
    rw [Nat.lor_comm, ← Nat.shiftLeft_add_eq_or_of_lt hop, Nat.shiftLeft_eq]
    ring
  have hlt : op + 2 ^ a * ep < 2 ^ (a + b) := by
    rw [Nat.pow_add]
    nlinarith
  rw [hlow, Nat.lor_comm, ← Nat.shiftLeft_add_eq_or_of_lt hlt, Nat.shiftLeft_eq, Nat.pow_add]
  ring

/-- The low field of a sum. -/
theorem bitField_low {a x y : Nat} (hx : x < 2 ^ a) : bitField (x + 2 ^ a * y) 0 a = x := by
  simp [bitField, Nat.add_mul_mod_self_left, Nat.mod_eq_of_lt hx]

/-- A field above the lowest is a field of what lies above it. -/
theorem bitField_above {a x y : Nat} (hx : x < 2 ^ a) (lo width : Nat) :
    bitField (x + 2 ^ a * y) (a + lo) width = bitField y lo width := by
  unfold bitField
  rw [Nat.pow_add, ← Nat.div_div_eq_div_mul, Nat.add_mul_div_left _ _ (Nat.two_pow_pos a),
    Nat.div_eq_of_lt hx, Nat.zero_add]

/-- A command word is its fields' sum, and each field fits its width (R102). -/
theorem encodeCommand_eq_some {c : Config} {op ep off w : Nat}
    (h : encodeCommand c op ep off = some w) :
    op < 2 ^ c.opcodeWidth ∧ ep < 2 ^ c.epWidth ∧ off < 2 ^ c.offsetWidth ∧
      w = op + 2 ^ c.opcodeWidth * (ep + 2 ^ c.epWidth * off) := by
  unfold encodeCommand at h
  split at h
  · next hf =>
    simp only [Config.commandFits, Bool.and_eq_true, decide_eq_true_eq] at hf
    obtain ⟨⟨hop, hep⟩, hoff⟩ := hf
    injection h with h
    exact ⟨hop, hep, hoff, h ▸ packed_eq_sum hop hep⟩
  · cases h

/-- The fields of an encoded command word are those it was encoded from (R101). -/
theorem decodeCommand_encodeCommand {c : Config} {op ep off w : Nat}
    (h : encodeCommand c op ep off = some w) : decodeCommand c w = commandOf op ep off := by
  obtain ⟨hop, hep, hoff, rfl⟩ := encodeCommand_eq_some h
  have hopcode : c.opcodeOf (op + 2 ^ c.opcodeWidth * (ep + 2 ^ c.epWidth * off)) = op :=
    bitField_low hop
  have hendpoint : c.epOf (op + 2 ^ c.opcodeWidth * (ep + 2 ^ c.epWidth * off)) = ep :=
    (bitField_above hop 0 c.epWidth).trans (bitField_low hep)
  have hoffset : c.offsetOf (op + 2 ^ c.opcodeWidth * (ep + 2 ^ c.epWidth * off)) = off := by
    refine (bitField_above hop c.epWidth c.offsetWidth).trans
      ((bitField_above hep 0 c.offsetWidth).trans ?_)
    simp [bitField, Nat.mod_eq_of_lt hoff]
  rw [decodeCommand, hopcode, hendpoint, hoffset]

/-- An encoded command word of a valid configuration fits a register (R10, R100). -/
theorem encodeCommand_lt {c : Config} (hv : c.valid = true) {op ep off w : Nat}
    (h : encodeCommand c op ep off = some w) : w < 2 ^ c.regWidth := by
  obtain ⟨hop, hep, hoff, rfl⟩ := encodeCommand_eq_some h
  obtain ⟨hw, -⟩ := (Config.valid_iff c).1 hv
  refine Nat.lt_of_lt_of_le ?_ (Nat.pow_le_pow_right Nat.two_pos hw)
  have hhigh : ep + 2 ^ c.epWidth * off < 2 ^ c.epWidth * 2 ^ c.offsetWidth := by nlinarith
  rw [Nat.pow_add, Nat.pow_add, Nat.mul_assoc]
  nlinarith

/-- The stimulus of an encoded command word decodes to the operation its opcode selects (R103). -/
theorem decode_encodeCommand {c : Config} (hv : c.valid = true) {op ep off : Nat} {x : Stimulus}
    (h : (encodeCommand c op ep off).map .word = some x) :
    decode c x = .ok (commandOf op ep off) := by
  obtain ⟨w, hw, rfl⟩ := Option.map_eq_some_iff.1 h
  rw [decode, if_pos (encodeCommand_lt hv hw), decodeCommand_encodeCommand hw]

/-- An opcode of 3 or more is an invalid one (R103). -/
theorem commandOf_of_three_le {op : Nat} (h : 3 ≤ op) (ep off : Nat) :
    commandOf op ep off = .invalidOpcode op ep off := by
  obtain ⟨n, rfl⟩ := Nat.exists_eq_add_of_le' h
  rfl

/-- What the encoder answers is the stimulus of a well-formed operation (R102). -/
theorem encode_eq_some {c : Config} {i : Instr} {x : Stimulus} (h : encode c i = some x) :
    i.wellFormed c = true ∧ stimulusOf c i = some x := by
  unfold encode at h
  split at h
  · next hw => exact ⟨hw, h⟩
  · cases h

/-- Settles O2: a command word by its packed fields, an event by the routing of its tag, status or
kind. -/
theorem decodeEncodeAgree : Obligations.DecodeEncodeAgree := by
  intro c i x hv h
  obtain ⟨hw, hx⟩ := encode_eq_some h
  cases i with
  | idle ep off => exact decode_encodeCommand hv hx
  | startOperation ep off => exact decode_encodeCommand hv hx
  | incrementReadPointer ep off => exact decode_encodeCommand hv hx
  | invalidOpcode op ep off =>
    simp only [Instr.wellFormed, Bool.and_eq_true, decide_eq_true_eq] at hw
    rw [decode_encodeCommand hv hx, commandOf_of_three_le hw.1]
  | evRxMsg addr size data reply =>
    simp only [Instr.wellFormed, Bool.and_eq_true, decide_eq_true_eq] at hw
    injection hx with hx
    subst hx
    exact if_pos hw.2
  | evTxReadDone | evTxAck | evTxNack | evRxUnsupported | evRxWriteDone =>
    injection hx with hx
    subst hx
    rfl

end Sys2Proof

namespace Sys2Proof.Machine

/-! ### Register widths -/

/-- A stored value has REG_WIDTH bits (R31). -/
theorem fitWord_lt (c : Config) (v : Nat) : fitWord c v < 2 ^ c.regWidth :=
  Nat.mod_lt _ (Nat.two_pow_pos _)

/-- The registers of an endpoint are those its names give (R30). -/
theorem Endpoint.mem_regs {p : Endpoint} {r : Reg} : r ∈ p.regs ↔ ∃ f, p.get f = r := by
  constructor
  · intro h
    simp only [Endpoint.regs, List.mem_cons, List.not_mem_nil, or_false] at h
    rcases h with rfl | rfl | rfl | rfl | rfl | rfl | rfl | rfl | rfl | rfl
    exacts [⟨.mode, rfl⟩, ⟨.messageAddr, rfl⟩, ⟨.messageSize, rfl⟩, ⟨.targetCore, rfl⟩,
      ⟨.targetEndpoint, rfl⟩, ⟨.bufferAddr, rfl⟩, ⟨.bufferSize, rfl⟩, ⟨.bufferReadPtr, rfl⟩,
      ⟨.bufferWritePtr, rfl⟩, ⟨.bufferMessageCount, rfl⟩]
  · rintro ⟨f, rfl⟩
    cases f <;> simp [Endpoint.regs, Endpoint.get]

/-- A register of an endpoint after reset is unwritten (R54). -/
@[simp] theorem Endpoint.reset_get (f : Field) : Endpoint.reset.get f = .unwritten := by
  cases f <;> rfl

/-- The endpoint of an id that the list holds is in the list; any other reads as after reset. -/
theorem State.ep_mem_or_reset (s : State) (e : Nat) :
    s.ep e ∈ s.endpoints ∨ s.ep e = Endpoint.reset := by
  cases h : s.endpoints[e]? with
  | none => exact .inr (by simp [State.ep, h])
  | some p => exact .inl (s.getElem?_endpoints h ▸ List.mem_of_getElem? h)

/-- The widths of R31, register by register. -/
theorem State.regsFit_iff (s : State) : s.regsFit ↔
    s.command < 2 ^ s.cfg.regWidth ∧ s.status < 2 ^ s.cfg.regWidth ∧
      ∀ e f, (s.reg e f).value < 2 ^ s.cfg.regWidth := by
  refine and_congr_right' (and_congr_right' ⟨fun h e f => ?_, fun h p hp r hr => ?_⟩)
  · rcases s.ep_mem_or_reset e with hm | hm
    · exact h _ hm _ (Endpoint.mem_regs.2 ⟨f, rfl⟩)
    · rw [State.reg, hm, Endpoint.reset_get]
      exact Nat.two_pow_pos _
  · obtain ⟨e, he⟩ := List.mem_iff_getElem?.1 hp
    obtain ⟨f, rfl⟩ := Endpoint.mem_regs.1 hr
    exact s.getElem?_endpoints he ▸ h e f

/-- Every update stores registers reduced to their width (R31). -/
theorem Update.keeps_regsFit {s t : State} (h : Update s t) (hs : s.regsFit) : t.regsFit := by
  rw [State.regsFit_iff] at hs ⊢
  obtain ⟨hcommand, hstatus, hreg⟩ := hs
  cases h with
  | setReg e f v =>
    refine ⟨hcommand, hstatus, fun x g => ?_⟩
    rw [State.setReg_reg]
    split
    · exact fitWord_lt _ v
    · exact hreg x g
  | setActivity e a => exact ⟨hcommand, hstatus, fun x g => s.setActivity_reg e x a g ▸ hreg x g⟩
  | setCommand v => exact ⟨fitWord_lt _ v, hstatus, hreg⟩
  | setStatus v => exact ⟨hcommand, fitWord_lt _ v, hreg⟩
  | _ => exact ⟨hcommand, hstatus, hreg⟩

/-- Settles O52: every step is a chain of updates, and each of them keeps the widths. -/
theorem registerWidthKept : Obligations.RegisterWidthKept := fun _ _ hs h =>
  step_keeps (fun _ _ => Update.keeps_regsFit) h hs

/-! ### What a step runs -/

/-- A step at an event handles it, with the event taken off the timeline (log 8). -/
theorem step_of_event {s : State} {ev : Event} {rest : List Event} (hv : s.cfg.valid = true)
    (ht : s.timeline = ev :: rest) : step s = handleEvent ev { s with timeline := rest } := by
  rw [step, if_pos hv, nextEvent, ht]

/-- With no event the oldest pending continuation runs (log 8). -/
theorem step_of_no_event {s : State} (hv : s.cfg.valid = true) (ht : s.timeline = []) :
    step s = runPending 0 s := by
  rw [step, if_pos hv, nextEvent, ht]

/-- Only a state with a valid configuration takes a step (log 25). -/
theorem valid_of_step {s t : State} (h : step s = .next t) : s.cfg.valid = true := by
  by_contra hv
  rw [step_of_not_valid hv] at h
  cases h

/-- A full-width access at a mapped address is the access by name (R51). -/
theorem atExternal_of_mapped {s : State} {a : Nat} {n : RegName}
    (h : s.cfg.regAddrMap.lookup a = some n) (access : RegName → Ans State) :
    atExternal a s.cfg.regWidth access s = access n := by
  rw [atExternal, if_neg (not_not_intro rfl), h]

/-- An access of another width is refused (R74). -/
theorem atExternal_of_width_ne {s : State} {a w : Nat} (h : w ≠ s.cfg.regWidth)
    (access : RegName → Ans State) :
    atExternal a w access s = .refused .partialWidthAccess := if_pos h

/-- An external access that answers is the access of the name its address maps to. -/
theorem atExternal_eq_next {s t : State} {a w : Nat} {access : RegName → Ans State}
    (h : atExternal a w access s = .next t) :
    ∃ n, w = s.cfg.regWidth ∧ s.cfg.regAddrMap.lookup a = some n ∧ access n = .next t := by
  unfold atExternal at h
  split at h
  · cases h
  · next hw =>
    split at h
    · next n hn => exact ⟨n, not_not.1 hw, hn, h⟩
    · cases h

/-- A software write, by name or by address, is the write of its register (R45, R51). -/
theorem handleEvent_of_writesReg {s : State} {n : RegName} {v : Nat} {ev : Event}
    (h : ev.writesReg s.cfg n v) : handleEvent ev s = regWrite n v s := by
  obtain rfl | ⟨a, ha, rfl⟩ := h
  · rfl
  · exact atExternal_of_mapped ha _

/-- A software read, by name or by address, is the read of its register (R45, R51). -/
theorem handleEvent_of_readsReg {s : State} {n : RegName} {ev : Event}
    (h : ev.readsReg s.cfg n) : handleEvent ev s = regRead n s := by
  obtain rfl | ⟨a, ha, rfl⟩ := h
  · rfl
  · exact atExternal_of_mapped ha _

/-- A software write to a register of endpoint `e` is one that `writesEndpoint` finds. -/
theorem Event.writesEndpoint_of_writesReg {c : Config} {e v : Nat} {f : Field} {ev : Event}
    (h : ev.writesReg c (.endpoint e f) v) : ev.writesEndpoint c e = true := by
  obtain rfl | ⟨a, ha, rfl⟩ := h <;> simp [Event.writesEndpoint, *]

/-- A write that answers stores the value and then runs or schedules a continuation: the executor
run of a COMMAND write, the response of any other (R150). -/
theorem regWrite_eq_next {s t : State} {n : RegName} {v : Nat} (h : regWrite n v s = .next t) :
    ∃ k, (k = .execute ∨ ∃ r, k = .respond r) ∧
      sched k (continueWith k) (storeReg n v s) = .next t := by
  unfold regWrite at h
  split_ifs at h
  · exact ⟨.execute, .inl rfl, h⟩
  · exact ⟨.respond (.writeDone n), .inr ⟨_, rfl⟩, h⟩

/-- A read that answers draws free values at most, and then gives its response (R55, U1). -/
theorem regRead_eq_next {s t : State} {n : RegName} (h : regRead n s = .next t) :
    ∃ r m, sched (.respond r) (continueWith (.respond r)) { s with freeCount := m } = .next t := by
  unfold regRead at h
  split at h
  · cases n with
    | command => exact ⟨_, s.freeCount, h⟩
    | status => exact ⟨_, s.freeCount, h⟩
    | endpoint e f =>
      dsimp only at h
      split at h
      · exact ⟨_, s.freeCount, h⟩
      · exact ⟨_, s.freeCount + 1, h⟩
  · cases h

/-- A transaction that answers runs the operation it decodes to (R41, R116). -/
theorem atPort_eq_next {x : Stimulus} {s t : State} (h : atPort x s = .next t) :
    ∃ i, decode s.cfg x = .ok i ∧ exec i s = .next t := by
  unfold atPort at h
  split at h
  · next i hi => exact ⟨i, hi, h⟩
  · next r _ => cases r <;> cases h

/-- What one step can do: `next` is the timeline's next event, where it has one, and `s` the state
with that event taken off. -/
inductive StepCase (next : Option Event) (s : State) : State → Prop where
  /-- nothing happens (R319; log 20) -/
  | idle : StepCase next s s
  /-- a software write, and the executor run or response it causes (R150) -/
  | write {t : State} (ev : Event) (n : RegName) (v : Nat) (k : Continuation)
      (hev : next = some ev) (hw : ev.writesReg s.cfg n v) (hk : k = .execute ∨ ∃ r, k = .respond r)
      (h : sched k (continueWith k) (storeReg n v s) = .next t) : StepCase next s t
  /-- a software read and its response (R31) -/
  | read {t : State} (r : AccessResp) (m : Nat)
      (h : sched (.respond r) (continueWith (.respond r)) { s with freeCount := m } = .next t) :
      StepCase next s t
  /-- the operation of a transaction at a port (R116) -/
  | port {t : State} (i : Instr) (m : Nat) (h : exec i { s with freeCount := m } = .next t) :
      StepCase next s t
  /-- a write by the CPU (R78) -/
  | cpuWrite (a : Nat) (bs : Bytes) : StepCase next s (cpuWrite a bs s)
  /-- a pending continuation (R352) -/
  | run {t : State} (k : Nat) (c : Continuation) (hk : s.pending[k]? = some c)
      (h : continueWith c { s with pending := s.pending.eraseIdx k } = .next t) : StepCase next s t

section
variable {next : Option Event} {s t : State}

theorem regWrite_cases {ev : Event} {n : RegName} {v : Nat} (hev : next = some ev)
    (hw : ev.writesReg s.cfg n v) (h : regWrite n v s = .next t) : StepCase next s t := by
  obtain ⟨k, hk, h⟩ := regWrite_eq_next h
  exact .write ev n v k hev hw hk h

theorem regRead_cases {n : RegName} (h : regRead n s = .next t) : StepCase next s t := by
  obtain ⟨r, m, h⟩ := regRead_eq_next h
  exact .read r m h

theorem atPort_cases {x : Stimulus} (h : atPort x s = .next t) : StepCase next s t := by
  obtain ⟨i, -, h⟩ := atPort_eq_next h
  exact .port i s.freeCount h

theorem memServe_cases {d : Disc} {e : Nat} (h : memServe d e s = .next t) :
    StepCase next s t := by
  unfold memServe at h
  split at h
  · injection h with h
    exact h ▸ .idle
  · cases d with
    | localTag =>
      obtain ⟨i, -, hi⟩ := atPort_eq_next h
      exact .port i _ hi
    | forwardedTag => exact atPort_cases h

theorem runPending_cases {k : Nat} (h : runPending k s = .next t) : StepCase next s t := by
  unfold runPending at h
  split at h
  · next c hc => exact .run k c hc h
  · injection h with h
    exact h ▸ .idle

theorem handleEvent_cases {ev : Event} (hev : next = some ev) (h : handleEvent ev s = .next t) :
    StepCase next s t := by
  cases ev with
  | regWrite n v => exact regWrite_cases hev (.inl rfl) h
  | regRead n => exact regRead_cases h
  | extWrite a w v =>
    obtain ⟨n, rfl, hn, h⟩ := atExternal_eq_next h
    exact regWrite_cases hev (.inr ⟨a, hn, rfl⟩) h
  | extRead a w =>
    obtain ⟨n, -, -, h⟩ := atExternal_eq_next h
    exact regRead_cases h
  | memResp r => exact atPort_cases h
  | memServe d e => exact memServe_cases h
  | netResp r => exact atPort_cases h
  | netIn x => exact atPort_cases h
  | cpuWrite a bs =>
    injection h with h
    exact h ▸ .cpuWrite a bs
  | run k => exact runPending_cases h

end

/-- One step answers next in one of these cases only. -/
theorem step_cases {s t : State} (h : step s = .next t) :
    StepCase s.timeline.head? { s with timeline := s.timeline.tail } t := by
  have hv := valid_of_step h
  cases ht : s.timeline with
  | nil =>
    rw [step_of_no_event hv ht, ← show { s with timeline := [] } = s by rw [← ht]] at h
    exact runPending_cases h
  | cons ev rest =>
    rw [step_of_event hv ht] at h
    exact handleEvent_cases rfl h

/-! ### What a step does to one endpoint's registers

Beside a software write, only the two advances of the ring buffer write a register of an endpoint.
Seen from one endpoint `e`, every operation is therefore a chain of moves, each of which leaves the
registers of `e` alone or is an advance of `e`. -/

/-- A producer advance writes the write pointer and the count of its endpoint only (R183, R189). -/
theorem fcAdvanceWrite_reg {f e : Nat} {g : Field} {s : State} {x : State × NetStatus}
    (h : fcAdvanceWrite f s = .next x)
    (hg : e = f → g ≠ .bufferWritePtr ∧ g ≠ .bufferMessageCount) :
    x.1.reg e g = s.reg e g := by
  obtain ⟨-, rfl⟩ | ⟨-, rfl⟩ := fcAdvanceWrite_eq_next h
  · rfl
  · rw [State.setReg_reg, if_neg fun hc => (hg hc.1).2 hc.2.2.symm, State.setReg_reg,
      if_neg fun hc => (hg hc.1).1 hc.2.2.symm]

/-- A consumer advance writes the read pointer and the count of its endpoint only (R182, R189). -/
theorem fcAdvanceRead_reg {f e : Nat} {g : Field} {s t : State} (h : fcAdvanceRead f s = .next t)
    (hg : e = f → g ≠ .bufferReadPtr ∧ g ≠ .bufferMessageCount) : t.reg e g = s.reg e g := by
  obtain ⟨-, rfl⟩ | ⟨-, rfl⟩ := fcAdvanceRead_eq_next h
  · rfl
  · rw [State.setReg_reg, if_neg fun hc => (hg hc.1).2 hc.2.2.symm, State.setReg_reg,
      if_neg fun hc => (hg hc.1).1 hc.2.2.symm]

theorem fcAdvanceWrite_cfg {f : Nat} {s : State} {x : State × NetStatus}
    (h : fcAdvanceWrite f s = .next x) : x.1.cfg = s.cfg := by
  obtain ⟨-, rfl⟩ | ⟨-, rfl⟩ := fcAdvanceWrite_eq_next h <;> rfl

theorem fcAdvanceRead_cfg {f : Nat} {s t : State} (h : fcAdvanceRead f s = .next t) :
    t.cfg = s.cfg := by
  obtain ⟨-, rfl⟩ | ⟨-, rfl⟩ := fcAdvanceRead_eq_next h <;> rfl

/-- One move, seen from endpoint `e`: its registers stay, or one of its pointers advances. `P` and
`C` say whether `e` may produce and whether it may consume. -/
inductive Move (e : Nat) (P C : Prop) (s : State) : State → Prop where
  | keep {t : State} (hcfg : t.cfg = s.cfg) (hreg : ∀ f, t.reg e f = s.reg e f) : Move e P C s t
  | produce {x : State × NetStatus} (hP : P) (h : fcAdvanceWrite e s = .next x) : Move e P C s x.1
  | consume {t : State} (hC : C) (h : fcAdvanceRead e s = .next t) : Move e P C s t

/-- A chain of moves. -/
abbrev Moves (e : Nat) (P C : Prop) : State → State → Prop := Relation.ReflTransGen (Move e P C)

/-- Moves from a state with the registers of `e` as they were. -/
theorem Moves.afterKeep {e : Nat} {P C : Prop} {s t u : State} (h : Moves e P C t u)
    (hcfg : t.cfg = s.cfg) (hreg : ∀ f, t.reg e f = s.reg e f) : Moves e P C s u :=
  .head (.keep hcfg hreg) h

/-- Where an outcome is a next state, a chain of moves leads there from `s`. -/
structure ByMoves (e : Nat) (P C : Prop) (s : State) (x : Ans State) : Prop where
  moves : ∀ t, x = .next t → Moves e P C s t

section
variable {e : Nat} {P C : Prop} {s : State}

theorem byMoves_next {t : State} (h : Moves e P C s t) : ByMoves e P C s (.next t) := by
  refine ⟨?_⟩
  rintro _ ⟨⟩
  exact h

@[simp] theorem byMoves_fault (r : Fault) : ByMoves e P C s (.fault r) := ⟨by rintro _ ⟨⟩⟩

@[simp] theorem byMoves_self : ByMoves e P C s (.next s) := byMoves_next .refl

/-- The next state has the registers of `e` as they were. -/
theorem byMoves_keep {t : State} (hcfg : t.cfg = s.cfg) (hreg : ∀ f, t.reg e f = s.reg e f) :
    ByMoves e P C s (.next t) :=
  byMoves_next (.single (.keep hcfg hreg))

theorem ByMoves.after {t : State} {x : Ans State} (hx : ByMoves e P C t x)
    (h : Moves e P C s t) : ByMoves e P C s x :=
  ⟨fun u hu => h.trans (hx.moves u hu)⟩

/-- Moves from a state with the registers of `e` as they were. -/
theorem ByMoves.afterKeep {t : State} {x : Ans State} (hx : ByMoves e P C t x)
    (hcfg : t.cfg = s.cfg) (hreg : ∀ f, t.reg e f = s.reg e f) : ByMoves e P C s x :=
  ⟨fun u hu => (hx.moves u hu).afterKeep hcfg hreg⟩

/-- A value read first moves nothing. -/
theorem byMoves_andThen {α : Type} {x : Ans α} {g : α → Ans State}
    (h : ∀ a, x = .next a → ByMoves e P C s (g a)) : ByMoves e P C s (andThen x g) := by
  refine ⟨fun t ht => ?_⟩
  obtain ⟨a, ha, hg⟩ := andThen_eq_next.1 ht
  exact (h a ha).moves t hg

/-- Moves, then the moves of what follows. -/
theorem ByMoves.andThen {x : Ans State} {g : State → Ans State} (hx : ByMoves e P C s x)
    (hg : ∀ t, ByMoves e P C t (g t)) : ByMoves e P C s (andThen x g) :=
  byMoves_andThen fun a ha => (hg a).after (hx.moves a ha)

/-- Freeing a tag moves nothing; the rest goes on with the tags that are left. -/
theorem takeTag_byMoves {p : Port} {d : Disc} {x : Nat} {g : State → Ans State}
    (h : ∀ l, ByMoves e P C s (g { s with outstanding := l })) :
    ByMoves e P C s (andThen (takeTag p d x s) g) := by
  refine byMoves_andThen fun t ht => ?_
  obtain ⟨-, rfl⟩ := takeTag_eq_next ht
  exact h _

theorem sched_byMoves (k : Continuation) {now : State → Ans State}
    (h : ByMoves e P C s (now s)) : ByMoves e P C s (sched k now s) := by
  cases hm : s.cfg.atomicMode with
  | true => rwa [sched_atomic hm]
  | false =>
    rw [sched_timed hm]
    exact byMoves_keep rfl fun _ => rfl

/-- The memory's part in atomic mode; nothing in timed mode. -/
theorem request_byMoves (d : Disc) (x : Nat) (bytes : Bytes) {done : Bytes → State → Ans State}
    (h : ∀ data l, ByMoves e P C s (done data { s with memAnswers := l })) :
    ByMoves e P C s (if s.cfg.atomicMode then memAnswered d x bytes done s else .next s) := by
  split
  · refine ⟨fun t ht => ?_⟩
    obtain ⟨data, ms, -, hd⟩ | ⟨-, rfl⟩ := memAnswered_eq_next ht
    · exact (h data ms).moves t hd
    · exact .single (.keep rfl fun _ => rfl)
  · simp

/-! The receive sequencer: its one advance is of the endpoint addressed. -/

theorem rxFinish_byMoves {f : Nat} (hP : e = f → P) : ByMoves e P C s (rxFinish f s) := by
  unfold rxFinish
  split
  · refine byMoves_andThen fun r hr => ?_
    have hadvance : Move e P C s r.1 := by
      by_cases hf : e = f
      · subst hf
        exact .produce (hP rfl) hr
      · exact .keep (fcAdvanceWrite_cfg hr) fun g => fcAdvanceWrite_reg hr fun h => absurd h hf
    exact byMoves_next (.tail (.single hadvance) (.keep rfl fun g => State.setActivity_reg ..))
  · simp

theorem rxWriteDone_byMoves {f : Nat} (hP : e = f → P) : ByMoves e P C s (rxWriteDone f s) := by
  refine takeTag_byMoves fun l => ?_
  split
  · exact (sched_byMoves _ (rxFinish_byMoves hP)).afterKeep rfl fun _ => rfl
  · exact byMoves_keep rfl fun _ => rfl

theorem rxWriteResponse_byMoves {f : Nat} (hP : e = f → P) (data : Bytes) :
    ByMoves e P C s (rxWriteResponse f data s) := by
  unfold rxWriteResponse
  split
  · exact rxWriteDone_byMoves hP
  · simp

theorem rxIssueWrite_byMoves {f : Nat} (hP : e = f → P) :
    ByMoves e P C s (rxIssueWrite f s) := by
  unfold rxIssueWrite
  split
  · refine byMoves_andThen fun wptr _ => ?_
    exact (request_byMoves _ _ _ fun data l =>
      (rxWriteResponse_byMoves hP data).afterKeep rfl fun _ => rfl).afterKeep rfl fun _ => rfl
  · simp

theorem rxMessage_byMoves {f : Nat} (hP : e = f → P) (size : Nat) (data : Bytes)
    (reply : Reply) : ByMoves e P C s (rxMessage f size data reply s) := by
  unfold rxMessage
  split
  · exact byMoves_keep rfl fun _ => rfl
  · split_ifs
    · exact byMoves_keep rfl fun _ => rfl
    · exact byMoves_keep rfl fun _ => rfl
    · refine byMoves_andThen fun occ _ => byMoves_andThen fun cap _ => ?_
      split
      · exact byMoves_keep rfl fun _ => rfl
      · exact (sched_byMoves _ (rxIssueWrite_byMoves hP)).afterKeep rfl
          fun g => State.setActivity_reg ..

/-- An arrival may advance an endpoint in receive mode only (R241). -/
theorem rxArrive_byMoves (hP : (s.reg e .mode).value = modeReceive → P) (addr size : Nat)
    (data : Bytes) (reply : Reply) : ByMoves e P C s (rxArrive addr size data reply s) := by
  unfold rxArrive
  extract_lets f
  split
  · exact byMoves_keep rfl fun _ => rfl
  · refine byMoves_andThen fun m hm => ?_
    split_ifs with h1 h2 h3
    · exact byMoves_keep rfl fun _ => rfl
    · exact byMoves_keep rfl fun _ => rfl
    · exact byMoves_keep rfl fun _ => rfl
    · refine rxMessage_byMoves (fun hf => hP ?_) ..
      rw [hf, ← (needReg_eq_next hm).2]
      exact not_not.1 h2

/-! The transmit sequencer: its one advance is by the receive chain of the unit's own core. -/

theorem txFinal_byMoves (x : Nat) (st : NetStatus) : ByMoves e P C s (.next (txFinal x st s)) := by
  cases st <;> exact byMoves_keep rfl fun f => State.setActivity_reg ..

theorem txResponded_byMoves (x : Nat) (st : NetStatus) :
    ByMoves e P C s (txResponded x st s) := by
  refine takeTag_byMoves fun l => ?_
  split
  · exact (sched_byMoves _ (txFinal_byMoves x st)).afterKeep rfl fun _ => rfl
  · exact byMoves_keep rfl fun _ => rfl

theorem netAnswer_byMoves (hP : (s.reg e .mode).value = modeReceive → P) (x : Nat)
    (r : NetReq) : ByMoves e P C s (netAnswer x r s) := by
  unfold netAnswer
  split_ifs
  · refine (rxArrive_byMoves hP ..).andThen fun t => ?_
    split
    · exact txResponded_byMoves ..
    · simp
  · split
    · exact (txResponded_byMoves ..).afterKeep rfl fun _ => rfl
    · simp
  · simp

theorem txSend_byMoves (hP : (s.reg e .mode).value = modeReceive → P) (x : Nat) (msg : Bytes) :
    ByMoves e P C s (txSend x msg s) := by
  unfold txSend
  split
  · exact (netAnswer_byMoves (s := s.issueNet _) hP ..).afterKeep rfl fun _ => rfl
  · simp

theorem txReadDone_byMoves (hP : (s.reg e .mode).value = modeReceive → P) (x : Nat)
    (d : Bytes) : ByMoves e P C s (txReadDone x d s) := by
  refine takeTag_byMoves fun l => ?_
  split
  · split
    · exact (sched_byMoves _ (txSend_byMoves (s := { s with outstanding := l }) hP ..)).afterKeep
        rfl fun _ => rfl
    · simp
  · exact byMoves_keep rfl fun _ => rfl

theorem txIssueRead_byMoves (hP : (s.reg e .mode).value = modeReceive → P) (x : Nat) :
    ByMoves e P C s (txIssueRead x s) := by
  unfold txIssueRead
  split
  · exact (request_byMoves (s := s.issueMem _) _ _ _ fun data l =>
      (txReadDone_byMoves (s := { s.issueMem _ with memAnswers := l }) hP x data).afterKeep rfl
        fun _ => rfl).afterKeep rfl fun _ => rfl
  · simp

theorem txAccept_byMoves (hP : (s.reg e .mode).value = modeReceive → P) (x : Nat) :
    ByMoves e P C s (txAccept x s) := by
  refine byMoves_andThen fun c _ => ?_
  have hreg : ∀ f, (((s.setStatus statusBusy).setActivity x (.transmitting c)).reg e f) =
    s.reg e f := fun f => State.setActivity_reg ..
  exact (sched_byMoves _ (txIssueRead_byMoves (hreg .mode ▸ hP) x)).afterKeep rfl hreg

/-! The operations and the continuations. -/

theorem inRange_byMoves {x : Nat} {k : Ans State} (h : ByMoves e P C s k) :
    ByMoves e P C s (inRange x s k) := by
  unfold inRange
  split
  · exact byMoves_keep rfl fun _ => rfl
  · exact h

/-- A START of endpoint `x` goes past its mode check in transmit mode only (R153). -/
theorem startOn_byMoves {x : Nat}
    (hP : (s.reg x .mode).value = modeTransmit → (s.reg e .mode).value = modeReceive → P) :
    ByMoves e P C s (startOn x s) := by
  refine byMoves_andThen fun m hm => ?_
  split_ifs with h1 h2 h3
  · exact byMoves_keep rfl fun _ => rfl
  · exact byMoves_keep rfl fun _ => rfl
  · exact byMoves_keep rfl fun _ => rfl
  · have hmode : (s.reg x .mode).value = modeTransmit :=
      (needReg_eq_next hm).2 ▸ not_not.1 h2
    refine byMoves_andThen fun len _ => ?_
    split
    · exact byMoves_keep rfl fun _ => rfl
    · exact txAccept_byMoves (hP hmode) x

/-- Only INCREMENT_READ_POINTER consumes, and it does not produce (R182, R189). -/
theorem exec_byMoves (i : Instr) (hP : (∀ x off, i ≠ .incrementReadPointer x off) → P)
    (hC : ∀ off, i = .incrementReadPointer e off → C) : ByMoves e P C s (exec i s) := by
  cases i with
  | idle x off => exact inRange_byMoves byMoves_self
  | startOperation x off => exact inRange_byMoves (startOn_byMoves fun _ _ => hP (by simp))
  | incrementReadPointer x off =>
    refine inRange_byMoves ⟨fun t ht => .single ?_⟩
    by_cases hx : e = x
    · subst hx
      exact .consume (hC off rfl) ht
    · exact .keep (fcAdvanceRead_cfg ht) fun g => fcAdvanceRead_reg ht fun h => absurd h hx
  | invalidOpcode op x off => exact inRange_byMoves (byMoves_keep rfl fun _ => rfl)
  | evTxReadDone x data => exact txReadDone_byMoves (fun _ => hP (by simp)) x data
  | evTxAck x => exact txResponded_byMoves x .ack
  | evTxNack x k => exact txResponded_byMoves x (.reject k)
  | evRxMsg addr size data reply =>
    change ByMoves e P C s (execEvRxMsg addr size data reply s)
    unfold execEvRxMsg
    split
    · exact rxArrive_byMoves (fun _ => hP (by simp)) ..
    · simp
  | evRxUnsupported addr reply => exact byMoves_keep rfl fun _ => rfl
  | evRxWriteDone f => exact rxWriteDone_byMoves fun _ => hP (by simp)

end

/-- A continuation may advance any endpoint. -/
theorem continueWith_byMoves (e : Nat) (k : Continuation) (s : State) :
    ByMoves e True True s (continueWith k s) := by
  cases k with
  | execute =>
    exact (exec_byMoves _ (fun _ => trivial) (fun _ _ => trivial)).andThen fun _ =>
      byMoves_keep rfl fun _ => rfl
  | respond r => exact byMoves_keep rfl fun _ => rfl
  | txIssueRead x => exact txIssueRead_byMoves (fun _ => trivial) x
  | txSend x msg => exact txSend_byMoves (fun _ => trivial) x msg
  | txFinal x st => exact txFinal_byMoves x st
  | rxIssueWrite f => exact rxIssueWrite_byMoves fun _ => trivial
  | rxFinish f => exact rxFinish_byMoves fun _ => trivial

/-- A software write to another register leaves an endpoint's registers as they were (R343). -/
theorem storeReg_reg_of_ne {e : Nat} {n : RegName} (hn : ∀ f, n ≠ .endpoint e f) (v : Nat)
    (s : State) (g : Field) : (storeReg n v s).reg e g = s.reg e g := by
  cases n with
  | command => rfl
  | status => rfl
  | endpoint x f =>
    have hx : ¬(e = x) := fun h => hn f (h ▸ rfl)
    exact (s.setReg_reg x e f g v).trans (if_neg fun hc => hx hc.1)

theorem storeReg_cfg (n : RegName) (v : Nat) (s : State) : (storeReg n v s).cfg = s.cfg :=
  (storeReg_update n v s).cfg_eq

/-- What a step does from the state with its event taken off is a chain of moves, unless the event
is a software write to endpoint `e`. -/
theorem StepCase.moves {next : Option Event} {s t : State} {e : Nat} (h : StepCase next s t)
    (hw : ∀ ev, next = some ev → ev.writesEndpoint s.cfg e = false) : Moves e True True s t := by
  cases h with
  | idle => exact .refl
  | write ev n v k hev hwrite hk h =>
    have hn : ∀ f, n ≠ .endpoint e f := by
      rintro f rfl
      simpa [hw ev hev] using Event.writesEndpoint_of_writesReg hwrite
    exact ((sched_byMoves k (continueWith_byMoves e k _)).moves t h).afterKeep (storeReg_cfg n v s)
      (storeReg_reg_of_ne hn v s)
  | read r m h =>
    exact ((sched_byMoves _ (continueWith_byMoves e _ _)).moves t h).afterKeep rfl fun _ => rfl
  | port i m h =>
    exact ((exec_byMoves i (fun _ => trivial) fun _ _ => trivial).moves t h).afterKeep rfl
      fun _ => rfl
  | cpuWrite a bs => exact .single (.keep rfl fun _ => rfl)
  | run k c hk h => exact ((continueWith_byMoves e c _).moves t h).afterKeep rfl fun _ => rfl

/-- Every step that is no software write to endpoint `e` is a chain of moves. -/
theorem step_moves {s t : State} {e : Nat} (h : step s = .next t)
    (hw : ∀ ev rest, s.timeline = ev :: rest → ev.writesEndpoint s.cfg e = false) :
    Moves e True True s t := by
  refine ((step_cases h).moves fun ev hev => ?_).afterKeep rfl fun _ => rfl
  obtain ⟨rest, hrest⟩ := List.head?_eq_some_iff.1 hev
  exact hw ev rest hrest

/-- A register of `e` stays where the moves of `e` write others only. -/
theorem Moves.reg_eq {e : Nat} {P C : Prop} {s t : State} (h : Moves e P C s t) {g : Field}
    (hP : P → g ≠ .bufferWritePtr ∧ g ≠ .bufferMessageCount)
    (hC : C → g ≠ .bufferReadPtr ∧ g ≠ .bufferMessageCount) : t.reg e g = s.reg e g := by
  induction h with
  | refl => rfl
  | tail _ hm ih =>
    refine Eq.trans ?_ ih
    cases hm with
    | keep _ hreg => exact hreg g
    | produce hp h => exact fcAdvanceWrite_reg h fun _ => hP hp
    | consume hc h => exact fcAdvanceRead_reg h fun _ => hC hc

/-- Settles O26: past its mode check a START runs in transmit mode, and the one advance that can
follow is of an endpoint in receive mode. -/
theorem startKeepsEndpointRegisters : Obligations.StartKeepsEndpointRegisters := by
  intro s t e off h f
  have hmode : (s.reg e .mode).value = modeTransmit →
      (s.reg e .mode).value = modeReceive → False := by
    intro h0 h1
    simp [h0, modeTransmit, modeReceive] at h1
  have hmoves : Moves e False False s t := (inRange_byMoves (startOn_byMoves hmode)).moves t h
  exact hmoves.reg_eq False.elim False.elim

/-- No operation changes the configuration or the number of endpoints. -/
theorem exec_cfg_length {i : Instr} {s t : State} (h : exec i s = .next t) :
    t.cfg = s.cfg ∧ t.endpoints.length = s.endpoints.length :=
  ((exec_byUpdates i s).updates t h).keeps
    (P := fun u => u.cfg = s.cfg ∧ u.endpoints.length = s.endpoints.length)
    (fun _ _ hu hs => ⟨hu.cfg_eq.trans hs.1, hu.length_endpoints.trans hs.2⟩) ⟨rfl, rfl⟩

/-- Settles O47: beside the software's writes only the two advances write a register of an
endpoint, and only INCREMENT_READ_POINTER makes the consumer's. -/
theorem neverWrittenRegisters : Obligations.NeverWrittenRegisters := by
  intro s t i h
  have hmoves (e : Nat) : Moves e (∀ x off, i ≠ .incrementReadPointer x off)
      (∃ off, i = .incrementReadPointer e off) s t :=
    (exec_byMoves i id fun off hi => ⟨off, hi⟩).moves t h
  obtain ⟨hcfg, hlength⟩ := exec_cfg_length h
  refine ⟨hcfg, hlength, fun e f hf => ?_, fun hi e => ?_, fun e off hi x => ?_⟩
  · have hne : f ≠ .bufferReadPtr ∧ f ≠ .bufferWritePtr ∧ f ≠ .bufferMessageCount := by
      revert hf
      cases f <;> decide
    exact (hmoves e).reg_eq (fun _ => hne.2) fun _ => ⟨hne.1, hne.2.2⟩
  · exact (hmoves e).reg_eq (fun _ => by decide) fun ⟨off, hoff⟩ => absurd hoff (hi e off)
  · exact (hmoves x).reg_eq (fun hne => absurd hi (hne e off)) fun _ => by decide

/-! ### The ring buffer -/

/-- The pointer after an advance is again at a slot (R181, R186). -/
theorem nextPointer_onSlot {slot base cap occ p : Nat} (h : onSlot slot base cap p) :
    onSlot slot base cap (nextPointer slot ⟨base, cap, occ, p⟩) := by
  obtain ⟨k, hk, rfl⟩ := h
  unfold nextPointer
  dsimp only
  split
  · exact ⟨0, Nat.zero_lt_of_lt hk, by simp⟩
  · next hlt =>
    refine ⟨k + 1, ?_, by ring⟩
    by_contra hge
    have : k + 1 = cap := by omega
    subst this
    exact hlt (by ring_nf; exact le_refl _)

/-- A slot of a buffer that lies in the address space is a value of REG_WIDTH bits (R31, R186). -/
theorem onSlot_fitWord {c : Config} {base cap p : Nat} (hslot : 0 < c.slotSize)
    (hend : base + cap * c.slotSize ≤ 2 ^ c.regWidth) (h : onSlot c.slotSize base cap p) :
    fitWord c p = p := by
  obtain ⟨k, hk, rfl⟩ := h
  refine Nat.mod_eq_of_lt (Nat.lt_of_lt_of_le ?_ hend)
  have := Nat.mul_lt_mul_of_pos_right hk hslot
  omega

/-- An endpoint whose ring buffer meets R186 exists: after reset the size is 0. -/
theorem lt_length_of_ringOk {c : Config} {s : State} {e : Nat} (h : ringOk c (s.ep e)) :
    e < s.endpoints.length := by
  by_contra hl
  have hreset : s.ep e = Endpoint.reset := by simp [State.ep, List.getElem?_eq_none (not_lt.1 hl)]
  rw [hreset] at h
  exact absurd h.1 (by decide)

/-- The conditions of R186 are about five registers. -/
theorem ringOk_congr {c : Config} {s t : State} {e : Nat} (h : ∀ f, t.reg e f = s.reg e f)
    (hs : ringOk c (s.ep e)) : ringOk c (t.ep e) := by
  have haddr : (t.ep e).bufferAddr = (s.ep e).bufferAddr := h .bufferAddr
  have hsize : (t.ep e).bufferSize = (s.ep e).bufferSize := h .bufferSize
  have hcount : (t.ep e).bufferMessageCount = (s.ep e).bufferMessageCount := h .bufferMessageCount
  have hread : (t.ep e).bufferReadPtr = (s.ep e).bufferReadPtr := h .bufferReadPtr
  have hwrite : (t.ep e).bufferWritePtr = (s.ep e).bufferWritePtr := h .bufferWritePtr
  rw [ringOk, haddr, hsize, hcount, hread, hwrite]
  exact hs

/-- An endpoint that exists, after one of its registers is set. -/
theorem State.setReg_ep {s : State} {e : Nat} (h : e < s.endpoints.length) (f : Field) (v : Nat) :
    (s.setReg e f v).ep e = (s.ep e).set f ⟨fitWord s.cfg v, true⟩ :=
  (s.modifyEp_ep e e _).trans (if_pos ⟨rfl, h⟩)

/-- A pointer set to a slot of the buffer keeps R186. -/
theorem ringOk_setReg_pointer {s : State} {e p : Nat} {f : Field}
    (hf : f = .bufferReadPtr ∨ f = .bufferWritePtr) (hslot : 0 < s.cfg.slotSize)
    (hs : ringOk s.cfg (s.ep e))
    (hp : onSlot s.cfg.slotSize (s.reg e .bufferAddr).value (s.reg e .bufferSize).value p) :
    ringOk s.cfg ((s.setReg e f p).ep e) := by
  rw [State.setReg_ep (lt_length_of_ringOk hs)]
  obtain ⟨hsize, hend, hcount, hread, hwrite⟩ := hs
  have hfit : onSlot s.cfg.slotSize (s.reg e .bufferAddr).value (s.reg e .bufferSize).value
      (fitWord s.cfg p) := (onSlot_fitWord hslot hend hp).symm ▸ hp
  obtain rfl | rfl := hf
  · exact ⟨hsize, hend, hcount, hfit, hwrite⟩
  · exact ⟨hsize, hend, hcount, hread, hfit⟩

/-- A count within the size of the buffer keeps R186. -/
theorem ringOk_setReg_count {s : State} {e n : Nat} (hs : ringOk s.cfg (s.ep e))
    (hn : n ≤ (s.reg e .bufferSize).value) :
    ringOk s.cfg ((s.setReg e .bufferMessageCount n).ep e) := by
  rw [State.setReg_ep (lt_length_of_ringOk hs)]
  obtain ⟨hsize, hend, -, hread, hwrite⟩ := hs
  exact ⟨hsize, hend, (Nat.mod_le ..).trans hn, hread, hwrite⟩

/-- An advance stores the next slot's pointer and a count within the size (R186). -/
theorem ringOk_advance {s : State} {e n occ : Nat} {f : Field}
    (hf : f = .bufferReadPtr ∨ f = .bufferWritePtr) (hslot : 0 < s.cfg.slotSize)
    (hs : ringOk s.cfg (s.ep e)) (hn : n ≤ (s.reg e .bufferSize).value) :
    ringOk s.cfg (((s.setReg e f (nextPointer s.cfg.slotSize ⟨(s.reg e .bufferAddr).value,
      (s.reg e .bufferSize).value, occ, (s.reg e f).value⟩)).setReg e .bufferMessageCount n).ep
        e) := by
  have hpointer : onSlot s.cfg.slotSize (s.reg e .bufferAddr).value (s.reg e .bufferSize).value
      (s.reg e f).value := by
    obtain ⟨-, -, -, hread, hwrite⟩ := hs
    obtain rfl | rfl := hf
    · exact hread
    · exact hwrite
  refine ringOk_setReg_count
    (ringOk_setReg_pointer hf hslot hs (nextPointer_onSlot hpointer)) ?_
  obtain rfl | rfl := hf <;> rwa [State.setReg_reg, if_neg (by simp)]

/-- A move keeps a ring buffer that meets R186. -/
theorem Move.keeps_ringOk {e : Nat} {P C : Prop} {s t : State} (h : Move e P C s t)
    (hslot : 0 < s.cfg.slotSize) (hs : ringOk s.cfg (s.ep e)) : ringOk s.cfg (t.ep e) := by
  have ⟨_, _, (hcount : (s.reg e .bufferMessageCount).value ≤ (s.reg e .bufferSize).value), _⟩ := hs
  cases h with
  | keep _ hreg => exact ringOk_congr hreg hs
  | produce _ h =>
    obtain ⟨-, rfl⟩ | ⟨hroom, rfl⟩ := fcAdvanceWrite_eq_next h
    · exact hs
    · exact ringOk_advance (.inr rfl) hslot hs hroom
  | consume _ h =>
    obtain ⟨-, rfl⟩ | ⟨-, rfl⟩ := fcAdvanceRead_eq_next h
    · exact hs
    · exact ringOk_advance (.inl rfl) hslot hs ((Nat.sub_le ..).trans hcount)

theorem Move.cfg_eq {e : Nat} {P C : Prop} {s t : State} (h : Move e P C s t) :
    t.cfg = s.cfg := by
  cases h with
  | keep hcfg _ => exact hcfg
  | produce _ h => exact fcAdvanceWrite_cfg h
  | consume _ h => exact fcAdvanceRead_cfg h

/-- Moves keep the configuration and a ring buffer that meets R186. -/
theorem Moves.keeps_ringOk {e : Nat} {P C : Prop} {s t : State} (h : Moves e P C s t)
    (hslot : 0 < s.cfg.slotSize) (hs : ringOk s.cfg (s.ep e)) :
    t.cfg = s.cfg ∧ ringOk s.cfg (t.ep e) := by
  induction h with
  | refl => exact ⟨rfl, hs⟩
  | tail _ hm ih =>
    obtain ⟨hcfg, hring⟩ := ih
    exact ⟨hm.cfg_eq.trans hcfg, hcfg ▸ hm.keeps_ringOk (hcfg ▸ hslot) (hcfg ▸ hring)⟩

/-- A slot of a valid configuration holds a byte at least (D36). -/
theorem slotSize_pos {c : Config} (h : c.valid = true) : 0 < c.slotSize := by
  have := (Config.valid_iff c).1 h
  omega

/-- Settles O30: seen from the endpoint the step is a chain of moves, and each advance takes a
pointer from one slot of the buffer to another and a count within its size. -/
theorem ringInvariantKept : Obligations.RingInvariantKept := by
  intro s t e hs hw h
  obtain ⟨hcfg, hring⟩ := (step_moves h hw).keeps_ringOk (slotSize_pos (valid_of_step h)) hs
  exact hcfg ▸ hring
end Sys2Proof.Machine

namespace Sys2Proof.Machine

/-! ### What carries an operation on

Between two steps each operation in flight is carried on by one continuation or one transaction
(`State.tracked`). Within a step its token is in hand: it has been taken from `pending` or
`outstanding` and is not yet put back. `State.holding` is the invariant with a hand counted in. -/

/-- The tokens a tag of this discriminant carries: a transmit one, or a receive one. -/
def tagTokens : Disc → Nat × Nat
  | .localTag => (1, 0)
  | .forwardedTag => (0, 1)

/-- The token of one operation of endpoint `e` in hand. -/
def hand (d : Disc) (e y : Nat) : Nat × Nat := if y = e then tagTokens d else 0

@[simp] theorem hand_same (d : Disc) (e : Nat) : hand d e e = tagTokens d := if_pos rfl

theorem hand_of_ne (d : Disc) {e y : Nat} (h : y ≠ e) : hand d e y = 0 := if_neg h

theorem tagTokens_sum (d : Disc) : (tagTokens d).1 + (tagTokens d).2 = 1 := by
  cases d <;> rfl

theorem Activity.tokens_sum_le (a : Activity) : a.tokens.1 + a.tokens.2 ≤ 1 := by
  cases a <;> simp [Activity.tokens]

/-- The tokens a continuation carries: those it adds to the counts of `pending`. -/
def Continuation.tokens (k : Continuation) (y : Nat) : Nat × Nat :=
  (if k.isTx y then 1 else 0, if k.isRx y then 1 else 0)

/-- A continuation of a transmit operation carries its token. -/
theorem Continuation.tokens_of_tx {k : Continuation} {e : Nat}
    (htx : ∀ y, k.isTx y = decide (e = y)) (hrx : ∀ y, k.isRx y = false) :
    k.tokens = hand .localTag e := by
  funext y
  by_cases h : y = e
  · simp [Continuation.tokens, tagTokens, hand, htx, hrx, h]
  · simp [Continuation.tokens, hand, htx, hrx, h, Ne.symm h]

/-- A continuation of a receive operation carries its token. -/
theorem Continuation.tokens_of_rx {k : Continuation} {e : Nat}
    (htx : ∀ y, k.isTx y = false) (hrx : ∀ y, k.isRx y = decide (e = y)) :
    k.tokens = hand .forwardedTag e := by
  funext y
  by_cases h : y = e
  · simp [Continuation.tokens, tagTokens, hand, htx, hrx, h]
  · simp [Continuation.tokens, hand, htx, hrx, h, Ne.symm h]

@[simp] theorem Continuation.tokens_txIssueRead (e : Nat) :
    (Continuation.txIssueRead e).tokens = hand .localTag e :=
  Continuation.tokens_of_tx (fun _ => rfl) fun _ => rfl

@[simp] theorem Continuation.tokens_txSend (e : Nat) (msg : Bytes) :
    (Continuation.txSend e msg).tokens = hand .localTag e :=
  Continuation.tokens_of_tx (fun _ => rfl) fun _ => rfl

@[simp] theorem Continuation.tokens_txFinal (e : Nat) (st : NetStatus) :
    (Continuation.txFinal e st).tokens = hand .localTag e :=
  Continuation.tokens_of_tx (fun _ => rfl) fun _ => rfl

@[simp] theorem Continuation.tokens_rxIssueWrite (f : Nat) :
    (Continuation.rxIssueWrite f).tokens = hand .forwardedTag f :=
  Continuation.tokens_of_rx (fun _ => rfl) fun _ => rfl

@[simp] theorem Continuation.tokens_rxFinish (f : Nat) :
    (Continuation.rxFinish f).tokens = hand .forwardedTag f :=
  Continuation.tokens_of_rx (fun _ => rfl) fun _ => rfl

/-- The tokens of endpoint `e` in `pending` and `outstanding`. -/
def State.tokens (s : State) (e : Nat) : Nat × Nat := (s.txTokens e, s.rxTokens e)

/-- The tokens of `pending` and `outstanding`, one by one. -/
theorem State.tokens_eq_sum (s : State) (y : Nat) :
    s.tokens y = (s.pending.map fun k => k.tokens y).sum +
      (s.outstanding.map fun t => hand t.disc t.ep y).sum := by
  have hpending : ∀ l : List Continuation, (l.map fun k => k.tokens y).sum =
      (l.countP (Continuation.isTx y), l.countP (Continuation.isRx y)) := by
    intro l
    induction l with
    | nil => rfl
    | cons k l ih =>
      rw [List.map_cons, List.sum_cons, ih, List.countP_cons, List.countP_cons, add_comm]
      rfl
  have houtstanding : ∀ l : List Txn, (l.map fun t => hand t.disc t.ep y).sum =
      (l.countP (fun t => decide (t.disc = .localTag) && decide (t.ep = y)),
        l.countP (fun t => decide (t.disc = .forwardedTag) && decide (t.ep = y))) := by
    intro l
    induction l with
    | nil => rfl
    | cons t l ih =>
      rw [List.map_cons, List.sum_cons, ih, List.countP_cons, List.countP_cons, hand]
      by_cases hy : y = t.ep
      · cases hd : t.disc <;> simp [hy, tagTokens, Nat.add_comm]
      · simp [hy, Ne.symm hy]
  rw [hpending, houtstanding]
  rfl

/-- `State.tracked` with the tokens `h` in hand. -/
def State.holding (s : State) (h : Nat → Nat × Nat) : Prop :=
  (∀ e, s.tokens e + h e = (s.activity e).tokens) ∧
  (∀ t ∈ s.outstanding, t.disc = .forwardedTag → t.port = .mem) ∧
  ∀ t ∈ s.outstanding, t.port = .mem → t.disc = .localTag → ∀ x,
    s.activity t.ep = .transmitting x → x.length = t.size

/-- Between steps nothing is in hand. -/
theorem State.tracked_iff_holding {s : State} : s.tracked ↔ s.holding 0 := Iff.rfl

/-- What is tracked depends on three parts of the state. -/
theorem State.holding.congr {s t : State} {h : Nat → Nat × Nat} (hs : s.holding h)
    (hp : t.pending = s.pending) (ho : t.outstanding = s.outstanding)
    (ha : ∀ e, t.activity e = s.activity e) : t.holding h := by
  obtain ⟨h1, h2, h3⟩ := hs
  refine ⟨fun e => ?_, ho ▸ h2, by simpa only [ha, ho] using h3⟩
  rw [ha, ← h1 e]
  simp only [State.tokens, State.txTokens, State.rxTokens, hp, ho]

section
variable {s t : State} {e : Nat}

/-- A continuation put into `pending` leaves the hand empty. -/
theorem State.holding.schedule {k : Continuation} (hs : s.holding k.tokens) :
    ({ s with pending := s.pending ++ [k] } : State).tracked := by
  obtain ⟨htokens, hport, hsize⟩ := hs
  refine State.tracked_iff_holding.2 ⟨fun y => Eq.trans ?_ (htokens y), hport, hsize⟩
  simp only [State.tokens_eq_sum, List.map_append, List.sum_append, List.map_singleton,
    List.sum_singleton, Pi.zero_apply]
  abel

/-- A continuation taken from `pending` is in hand. -/
theorem State.tracked.unschedule (hs : s.tracked) {i : Nat} {k : Continuation}
    (hk : s.pending[i]? = some k) :
    ({ s with pending := s.pending.eraseIdx i } : State).holding k.tokens := by
  obtain ⟨htokens, hport, hsize⟩ := State.tracked_iff_holding.1 hs
  obtain ⟨hi, rfl⟩ := List.getElem?_eq_some_iff.1 hk
  refine ⟨fun y => Eq.trans ?_ (htokens y), hport, hsize⟩
  have hperm := ((List.getElem_cons_eraseIdx_perm hi).map fun k => k.tokens y).sum_eq
  rw [List.map_cons, List.sum_cons] at hperm
  rw [State.tokens_eq_sum, State.tokens_eq_sum, ← hperm, Pi.zero_apply]
  abel

/-- With its token in hand an endpoint is in the state that goes with it, and nothing else carries
it. -/
theorem State.holding.alone {d : Disc} (hs : s.holding (hand d e)) :
    (s.activity e).tokens = tagTokens d ∧ s.tokens e = 0 := by
  have h : s.tokens e + tagTokens d = (s.activity e).tokens := hand_same d e ▸ hs.1 e
  have hle := (s.activity e).tokens_sum_le
  have hsum := tagTokens_sum d
  rw [← h, Prod.fst_add, Prod.snd_add] at hle
  have hzero : s.tokens e = 0 := Prod.ext (by simp; omega) (by simp; omega)
  exact ⟨by rw [← h, hzero, zero_add], hzero⟩

/-- A Transmitting endpoint goes with a transmit token. -/
theorem Activity.tokens_eq_local {a : Activity} :
    a.tokens = tagTokens .localTag ↔ ∃ x, a = .transmitting x := by
  cases a <;> simp [Activity.tokens, tagTokens]

/-- A Receiving endpoint goes with a receive token. -/
theorem Activity.tokens_eq_forwarded {a : Activity} :
    a.tokens = tagTokens .forwardedTag ↔ ∃ c, a = .receiving c := by
  cases a <;> simp [Activity.tokens, tagTokens]

theorem State.holding.transmitting (hs : s.holding (hand .localTag e)) :
    ∃ x, s.activity e = .transmitting x := Activity.tokens_eq_local.1 hs.alone.1

theorem State.holding.receiving (hs : s.holding (hand .forwardedTag e)) :
    ∃ c, s.activity e = .receiving c := Activity.tokens_eq_forwarded.1 hs.alone.1

/-- An endpoint that nothing carries has no transaction outstanding. -/
theorem State.ep_ne_of_tokens_eq_zero (h : s.tokens e = 0) : ∀ t ∈ s.outstanding, t.ep ≠ e := by
  intro t ht he
  have htx : s.txTokens e = 0 := congrArg Prod.fst h
  have hrx : s.rxTokens e = 0 := congrArg Prod.snd h
  have hlocal := List.countP_eq_zero.1 (Nat.add_eq_zero_iff.1 htx).2 t ht
  have hforwarded := List.countP_eq_zero.1 (Nat.add_eq_zero_iff.1 hrx).2 t ht
  cases hd : t.disc <;> simp [hd, he] at hlocal hforwarded

/-- An endpoint that is not Idle exists. -/
theorem State.lt_length_of_not_idle (h : s.activity e ≠ .idle) : e < s.endpoints.length := by
  by_contra hl
  exact h (by simp [State.activity, State.ep, List.getElem?_eq_none (not_lt.1 hl),
    Endpoint.reset])

/-- An operation accepted by an Idle endpoint has its token in hand (R201, R248). -/
theorem State.tracked.accept {d : Disc} (hs : s.tracked) (hl : e < s.endpoints.length)
    (hi : s.activity e = .idle) {a : Activity} (ha : a.tokens = tagTokens d) :
    (s.setActivity e a).holding (hand d e) := by
  obtain ⟨htokens, hport, hsize⟩ := State.tracked_iff_holding.1 hs
  have hzero : s.tokens e = 0 := (htokens e).trans (by rw [hi]; rfl)
  refine ⟨fun y => ?_, hport, fun t ht hm hd x hx => ?_⟩
  · change s.tokens y + hand d e y = _
    rw [State.setActivity_activity]
    by_cases hy : y = e
    · subst hy
      rw [if_pos ⟨rfl, hl⟩, hzero, zero_add, hand_same, ha]
    · rw [if_neg fun hc => hy hc.1, hand_of_ne d hy]
      exact htokens y
  · rw [State.setActivity_activity,
      if_neg fun hc => s.ep_ne_of_tokens_eq_zero hzero t ht hc.1] at hx
    exact hsize t ht hm hd x hx

/-- An endpoint back in Idle uses its token up (R206, R253). -/
theorem State.holding.finish {d : Disc} (hs : s.holding (hand d e)) :
    (s.setActivity e .idle).tracked := by
  obtain ⟨hactive, hzero⟩ := hs.alone
  have hl : e < s.endpoints.length := s.lt_length_of_not_idle fun hi => by
    rw [hi] at hactive
    cases d <;> cases hactive
  obtain ⟨htokens, hport, hsize⟩ := hs
  refine State.tracked_iff_holding.2 ⟨fun y => ?_, hport, fun t ht hm hd x hx => ?_⟩
  · change s.tokens y + 0 = _
    rw [State.setActivity_activity]
    by_cases hy : y = e
    · subst hy
      rw [if_pos ⟨rfl, hl⟩, hzero]
      rfl
    · rw [if_neg fun hc => hy hc.1, ← htokens y, hand_of_ne d hy]
  · rw [State.setActivity_activity,
      if_neg fun hc => s.ep_ne_of_tokens_eq_zero hzero t ht hc.1] at hx
    exact hsize t ht hm hd x hx

/-- A request issued with the token of its tag leaves the hand empty (R202, R204, R250). -/
theorem State.holding.addTag {g : Txn} (hs : s.holding (hand g.disc g.ep))
    (hport : g.disc = .forwardedTag → g.port = .mem)
    (hsize : g.port = .mem → g.disc = .localTag → ∀ x, s.activity g.ep = .transmitting x →
      x.length = g.size) : (s.addTag g).tracked := by
  have hout : (s.addTag g).outstanding = s.outstanding ++ [g] := by
    rw [State.addTag_outstanding, List.filter_eq_self.2]
    intro t ht
    simp [Txn.hasTag, s.ep_ne_of_tokens_eq_zero hs.alone.2 t ht]
  obtain ⟨htokens, hports, hsizes⟩ := hs
  refine State.tracked_iff_holding.2 ⟨fun y => ?_, ?_, ?_⟩
  · refine Eq.trans ?_ (htokens y)
    rw [State.tokens_eq_sum, State.tokens_eq_sum, hout, List.map_append, List.sum_append,
      List.map_singleton, List.sum_singleton, Pi.zero_apply, add_zero, add_assoc]
    rfl
  · rw [hout]
    exact List.forall_mem_append.2 ⟨hports, by simpa using hport⟩
  · rw [hout]
    exact List.forall_mem_append.2 ⟨hsizes, List.forall_mem_singleton.2 hsize⟩

/-- A tag that is outstanding is so once, and freeing it leaves its token in hand (R40). -/
theorem State.tracked.takeTag {p : Port} {d : Disc} (hs : s.tracked)
    (h : takeTag p d e s = .next t) : t.holding (hand d e) := by
  obtain ⟨htokens, hport, hsize⟩ := State.tracked_iff_holding.1 hs
  obtain ⟨⟨g, hg, htag⟩, rfl⟩ := takeTag_eq_next h
  have hsplit (y : Nat) : (s.outstanding.map fun t => hand t.disc t.ep y).sum =
      (s.outstanding.filter (·.hasTag p d e)).length • hand d e y +
        ((s.outstanding.filter (!·.hasTag p d e)).map fun t => hand t.disc t.ep y).sum := by
    have hperm := ((List.filter_append_perm (·.hasTag p d e) s.outstanding).map
      fun t => hand t.disc t.ep y).sum_eq
    rw [← hperm, List.map_append, List.sum_append]
    congr 1
    rw [List.map_congr_left (g := fun _ => hand d e y), List.map_const', List.sum_replicate]
    intro t ht
    have := (List.mem_filter.1 ht).2
    simp only [Txn.hasTag, Bool.and_eq_true, decide_eq_true_eq] at this
    rw [this.1.2, this.2]
  have hone : (s.outstanding.filter (·.hasTag p d e)).length = 1 := by
    have hpos : 0 < (s.outstanding.filter (·.hasTag p d e)).length :=
      List.length_pos_of_mem (List.mem_filter.2 ⟨hg, htag⟩)
    have hle := (s.activity e).tokens_sum_le
    have hsum := tagTokens_sum d
    rw [← htokens e, State.tokens_eq_sum, hsplit, hand_same] at hle
    simp only [Prod.fst_add, Prod.snd_add, Prod.smul_fst, Prod.smul_snd, smul_eq_mul] at hle
    nlinarith
  refine ⟨fun y => ?_, fun t ht => hport t (List.mem_of_mem_filter ht),
    fun t ht => hsize t (List.mem_of_mem_filter ht)⟩
  refine Eq.trans ?_ (htokens y)
  rw [State.tokens_eq_sum s, State.tokens_eq_sum, hsplit, hone, one_smul, Pi.zero_apply]
  abel

/-- A write by the CPU marks the reads in flight and carries nothing on (R78). -/
theorem State.tracked.markRaced (hs : s.tracked) (span : Nat × Nat) :
    (s.markRaced span).tracked := by
  have hmark (P : Txn → Prop) (h : ∀ t ∈ s.outstanding, ∀ l, P { t with raced := l }) :
      ∀ t ∈ (s.markRaced span).outstanding, P t := by
    rw [State.markRaced_outstanding, List.forall_mem_map]
    intro t ht
    split
    · exact h t ht _
    · exact h t ht t.raced
  obtain ⟨htokens, hport, hsize⟩ := State.tracked_iff_holding.1 hs
  refine State.tracked_iff_holding.2 ⟨fun y => Eq.trans ?_ (htokens y),
    hmark _ fun t ht l => hport t ht, hmark _ fun t ht l => hsize t ht⟩
  rw [State.tokens_eq_sum, State.tokens_eq_sum, State.markRaced_outstanding, List.map_map]
  congr 3
  refine List.map_congr_left fun t _ => ?_
  dsimp only [Function.comp]
  split <;> rfl

/-! ### The operations keep the tokens -/

/-- Where an outcome is a next state, its tokens are tracked. -/
structure Tracks (x : Ans State) : Prop where
  tracked : ∀ t, x = .next t → t.tracked

theorem tracks_next (hs : s.tracked) : Tracks (.next s) := by
  refine ⟨?_⟩
  rintro _ ⟨⟩
  exact hs

@[simp] theorem tracks_fault (r : Fault) : Tracks (.fault r) := ⟨by rintro _ ⟨⟩⟩

theorem tracks_andThen {α : Type} {x : Ans α} {g : α → Ans State}
    (h : ∀ a, x = .next a → Tracks (g a)) : Tracks (andThen x g) := by
  refine ⟨fun t ht => ?_⟩
  obtain ⟨a, ha, hg⟩ := andThen_eq_next.1 ht
  exact (h a ha).tracked t hg

/-- A continuation with its token in hand becomes pending, or runs at once (R351, R352). -/
theorem sched_tracks {k : Continuation} {now : State → Ans State} (hs : s.holding k.tokens)
    (h : Tracks (now s)) : Tracks (sched k now s) := by
  cases hm : s.cfg.atomicMode with
  | true => rwa [sched_atomic hm]
  | false =>
    rw [sched_timed hm]
    exact tracks_next hs.schedule

/-- The memory's part in atomic mode, after a request that is tracked; nothing in timed mode. -/
theorem request_tracks (hs : s.tracked) (d : Disc) (x : Nat) (bytes : Bytes)
    {done : Bytes → State → Ans State}
    (h : ∀ data t, t.tracked → (s.shaped → t.shaped) → Tracks (done data t)) :
    Tracks (if s.cfg.atomicMode then memAnswered d x bytes done s else .next s) := by
  split
  · refine ⟨fun t ht => ?_⟩
    obtain ⟨data, ms, -, hd⟩ | ⟨-, rfl⟩ := memAnswered_eq_next ht
    · exact (h data { s with memAnswers := ms } hs id).tracked t hd
    · exact hs
  · exact tracks_next hs

/-! The receive sequencer. -/

/-- The producer advance carries nothing on. -/
theorem fcAdvanceWrite_holding {h : Nat → Nat × Nat} {x : State × NetStatus}
    (hs : s.holding h) (hx : fcAdvanceWrite e s = .next x) : x.1.holding h := by
  obtain ⟨-, rfl⟩ | ⟨-, rfl⟩ := fcAdvanceWrite_eq_next hx
  · exact hs
  · exact hs.congr rfl rfl fun y => by simp

theorem rxFinish_tracks (hs : s.holding (hand .forwardedTag e)) : Tracks (rxFinish e s) := by
  unfold rxFinish
  split
  · refine tracks_andThen fun r hr => tracks_next ?_
    exact State.holding.finish (s := r.1.respondNet _ _) (fcAdvanceWrite_holding hs hr)
  · simp

theorem rxWriteDone_tracks (hs : s.tracked) : Tracks (rxWriteDone e s) := by
  refine tracks_andThen fun t ht => ?_
  have hheld := hs.takeTag ht
  obtain ⟨c, hc⟩ := hheld.receiving
  rw [hc]
  exact sched_tracks (by simpa using hheld) (rxFinish_tracks hheld)

theorem rxWriteResponse_tracks (hs : s.tracked) (data : Bytes) :
    Tracks (rxWriteResponse e data s) := by
  unfold rxWriteResponse
  split
  · exact rxWriteDone_tracks hs
  · simp

theorem rxIssueWrite_tracks (hs : s.holding (hand .forwardedTag e)) :
    Tracks (rxIssueWrite e s) := by
  unfold rxIssueWrite
  split
  · next c _ =>
    refine tracks_andThen fun wptr _ => ?_
    have hissued : ((s.issueMem ⟨wptr, c.length, .write, c.payload, .forwardedTag, e⟩).writeMem
        wptr c.payload).tracked :=
      State.holding.addTag (g := ⟨.mem, .forwardedTag, e, wptr, c.length, []⟩) hs
        (fun _ => rfl) (by rintro _ ⟨⟩)
    exact request_tracks hissued _ _ _ fun data t ht _ => rxWriteResponse_tracks ht data
  · simp

theorem rxAccept_tracks (hs : s.tracked) (hl : e < s.endpoints.length)
    (hi : s.activity e = .idle) (c : RxCtx) : Tracks (rxAccept e c s) := by
  have hheld := hs.accept (d := .forwardedTag) hl hi (a := .receiving c) rfl
  exact sched_tracks (by simpa using hheld) (rxIssueWrite_tracks hheld)

theorem rxMessage_tracks (hs : s.tracked) (hl : e < s.endpoints.length)
    (hi : s.activity e = .idle) (size : Nat) (data : Bytes) (reply : Reply) :
    Tracks (rxMessage e size data reply s) := by
  unfold rxMessage
  split
  · exact tracks_next hs
  · split_ifs
    · exact tracks_next hs
    · exact tracks_next hs
    · refine tracks_andThen fun occ _ => tracks_andThen fun cap _ => ?_
      split
      · exact tracks_next hs
      · exact rxAccept_tracks hs hl hi _

theorem rxArrive_tracks (hs : s.tracked) (hshape : s.shaped) (addr size : Nat) (data : Bytes)
    (reply : Reply) : Tracks (rxArrive addr size data reply s) := by
  unfold rxArrive
  extract_lets f
  split
  · exact tracks_next hs
  · next hf =>
    refine tracks_andThen fun m _ => ?_
    split_ifs with _ _ hidle
    · exact tracks_next hs
    · exact tracks_next hs
    · exact tracks_next hs
    · exact rxMessage_tracks hs (hshape ▸ not_le.1 hf) (by simpa [State.isIdle] using hidle) ..

/-! The transmit sequencer. -/

theorem txFinal_tracked (hs : s.holding (hand .localTag e)) (st : NetStatus) :
    (txFinal e st s).tracked := by
  have hfinal := State.holding.finish (s := (s.setCommand Config.idleCommand).setStatus statusIdle)
    hs
  cases st <;> exact hfinal

theorem txResponded_tracks (hs : s.tracked) (st : NetStatus) : Tracks (txResponded e st s) := by
  refine tracks_andThen fun t ht => ?_
  have hheld := hs.takeTag ht
  obtain ⟨x, hx⟩ := hheld.transmitting
  rw [hx]
  exact sched_tracks (by simpa using hheld) (tracks_next (txFinal_tracked hheld st))

theorem netAnswer_tracks (hs : s.tracked) (hshape : s.shaped) (r : NetReq) :
    Tracks (netAnswer e r s) := by
  unfold netAnswer
  split_ifs
  · refine tracks_andThen fun t ht => ?_
    have htracked := (rxArrive_tracks hs hshape _ _ _ _).tracked t ht
    split
    · exact txResponded_tracks htracked _
    · exact tracks_next htracked
  · split
    · next rest _ => exact txResponded_tracks (s := { s with netAnswers := rest }) hs _
    · exact tracks_next hs
  · exact tracks_next hs

theorem txSend_tracks (hs : s.holding (hand .localTag e)) (hshape : s.shaped) (msg : Bytes) :
    Tracks (txSend e msg s) := by
  unfold txSend
  split
  · next x _ =>
    have hissued : (s.issueNet (sendReq s.cfg e x msg)).tracked :=
      State.holding.addTag (g := ⟨.net, .localTag, e, _, _, []⟩) hs (by rintro ⟨⟩) (by rintro ⟨⟩)
    exact netAnswer_tracks hissued hshape _
  · simp

theorem txReadDone_tracks (hs : s.tracked) (hshape : s.shaped) (d : Bytes) :
    Tracks (txReadDone e d s) := by
  refine tracks_andThen fun t ht => ?_
  have hheld := hs.takeTag ht
  obtain ⟨-, rfl⟩ := takeTag_eq_next ht
  obtain ⟨x, hx⟩ := hheld.transmitting
  rw [hx]
  dsimp only
  split
  · exact sched_tracks (by simpa using hheld) (txSend_tracks hheld hshape _)
  · simp

theorem txIssueRead_tracks (hs : s.holding (hand .localTag e)) (hshape : s.shaped) :
    Tracks (txIssueRead e s) := by
  unfold txIssueRead
  split
  · next x hx =>
    have hissued : (s.issueMem ⟨x.msgAddr, x.length, .read, [], .localTag, e⟩).tracked := by
      refine State.holding.addTag (g := ⟨.mem, .localTag, e, x.msgAddr, x.length, []⟩) hs
        (by rintro ⟨⟩) fun _ _ y hy => ?_
      injection hx.symm.trans hy with hxy
      rw [hxy]
    exact request_tracks hissued _ _ _ fun data t ht hkeep =>
      txReadDone_tracks ht (hkeep hshape) data
  · simp

theorem txAccept_tracks (hs : s.tracked) (hshape : s.shaped) (hl : e < s.endpoints.length)
    (hi : s.activity e = .idle) : Tracks (txAccept e s) := by
  refine tracks_andThen fun x _ => ?_
  have hheld := State.tracked.accept (s := s.setStatus statusBusy) (d := .localTag) hs hl hi
    (a := .transmitting x) rfl
  exact sched_tracks (by simpa using hheld) (txIssueRead_tracks hheld
    ((Update.setActivity e (.transmitting x)).keeps_shaped hshape))

/-! The executor and the continuations. -/

theorem inRange_tracks (hs : s.tracked) {k : Ans State}
    (h : e < s.cfg.endpointCount → Tracks k) : Tracks (inRange e s k) := by
  unfold inRange
  split
  · exact tracks_next hs
  · next he => exact h (not_le.1 he)

theorem startOn_tracks (hs : s.tracked) (hshape : s.shaped) (he : e < s.cfg.endpointCount) :
    Tracks (startOn e s) := by
  refine tracks_andThen fun m _ => ?_
  split_ifs with _ _ hidle
  · exact tracks_next hs
  · exact tracks_next hs
  · exact tracks_next hs
  · refine tracks_andThen fun len _ => ?_
    split
    · exact tracks_next hs
    · exact txAccept_tracks hs hshape (hshape ▸ he) (by simpa [State.isIdle] using hidle)

/-- The consumer advance carries nothing on. -/
theorem fcAdvanceRead_tracks (hs : s.tracked) : Tracks (fcAdvanceRead e s) := by
  refine ⟨fun t ht => ?_⟩
  obtain ⟨-, rfl⟩ | ⟨-, rfl⟩ := fcAdvanceRead_eq_next ht
  · exact hs
  · exact State.tracked_iff_holding.2
      ((State.tracked_iff_holding.1 hs).congr rfl rfl fun y => by simp)

theorem exec_tracks (hs : s.tracked) (hshape : s.shaped) (i : Instr) : Tracks (exec i s) := by
  cases i with
  | idle x off => exact inRange_tracks hs fun _ => tracks_next hs
  | startOperation x off => exact inRange_tracks hs (startOn_tracks hs hshape)
  | incrementReadPointer x off => exact inRange_tracks hs fun _ => fcAdvanceRead_tracks hs
  | invalidOpcode op x off => exact inRange_tracks hs fun _ => tracks_next hs
  | evTxReadDone x data => exact txReadDone_tracks hs hshape data
  | evTxAck x => exact txResponded_tracks hs .ack
  | evTxNack x k => exact txResponded_tracks hs (.reject k)
  | evRxMsg addr size data reply =>
    change Tracks (execEvRxMsg addr size data reply s)
    unfold execEvRxMsg
    split
    · exact rxArrive_tracks hs hshape ..
    · simp
  | evRxUnsupported addr reply => exact tracks_next hs
  | evRxWriteDone f => exact rxWriteDone_tracks hs

theorem continueWith_tracks {k : Continuation} (hs : s.holding k.tokens) (hshape : s.shaped) :
    Tracks (continueWith k s) := by
  cases k with
  | execute =>
    refine tracks_andThen fun t ht => tracks_next ?_
    exact (exec_tracks (State.tracked_iff_holding.2 hs) hshape _).tracked t ht
  | respond r => exact tracks_next (State.tracked_iff_holding.2 hs)
  | txIssueRead x => exact txIssueRead_tracks (by simpa using hs) hshape
  | txSend x msg => exact txSend_tracks (by simpa using hs) hshape msg
  | txFinal x st => exact tracks_next (txFinal_tracked (by simpa using hs) st)
  | rxIssueWrite f => exact rxIssueWrite_tracks (by simpa using hs)
  | rxFinish f => exact rxFinish_tracks (by simpa using hs)

/-- A register write carries nothing on (R343). -/
theorem State.tracked.storeReg (hs : s.tracked) (n : RegName) (v : Nat) :
    (storeReg n v s).tracked := by
  cases n with
  | command => exact hs
  | status => exact hs
  | endpoint x f =>
    exact State.tracked_iff_holding.2
      ((State.tracked_iff_holding.1 hs).congr rfl rfl fun y => s.setReg_activity x y f v)

theorem StepCase.tracked {next : Option Event} (h : StepCase next s t) (hs : s.tracked)
    (hshape : s.shaped) : t.tracked := by
  cases h with
  | idle => exact hs
  | write ev n v k hev hwrite hk h =>
    have hheld : (Machine.storeReg n v s).holding k.tokens := by
      have := State.tracked_iff_holding.1 (hs.storeReg n v)
      obtain rfl | ⟨r, rfl⟩ := hk <;> exact this
    exact (sched_tracks hheld (continueWith_tracks hheld
      ((storeReg_update n v s).keeps_shaped hshape))).tracked t h
  | read r m h =>
    have hheld : ({ s with freeCount := m } : State).holding (Continuation.respond r).tokens :=
      State.tracked_iff_holding.1 hs
    exact (sched_tracks hheld (continueWith_tracks hheld hshape)).tracked t h
  | port i m h => exact (exec_tracks (s := { s with freeCount := m }) hs hshape i).tracked t h
  | cpuWrite a bs => exact State.tracked.markRaced (s := s.writeMem a bs) hs _
  | run k c hk h => exact (continueWith_tracks (hs.unschedule hk) hshape).tracked t h

end

/-- Settles O54: a step takes a token from `pending` or `outstanding` in hand only for the operation
whose state goes with it, and puts it back or ends that operation. -/
theorem trackingKept : Obligations.TrackingKept := fun s _ hshape hs h =>
  StepCase.tracked (s := { s with timeline := s.timeline.tail }) (step_cases h) hs hshape
end Sys2Proof.Machine

namespace Sys2Proof.Machine

/-! ### Register access -/

section
variable {s : State} {ev : Event} {rest : List Event}

/-- A step at a software write is the write of its register (R45, R51). -/
theorem step_of_writesReg (hv : s.cfg.valid = true) (ht : s.timeline = ev :: rest) {n : RegName}
    {v : Nat} (h : ev.writesReg s.cfg n v) : step s = regWrite n v { s with timeline := rest } :=
  (step_of_event hv ht).trans (handleEvent_of_writesReg (s := { s with timeline := rest }) h)

/-- A step at a software read is the read of its register (R45, R51). -/
theorem step_of_readsReg (hv : s.cfg.valid = true) (ht : s.timeline = ev :: rest) {n : RegName}
    (h : ev.readsReg s.cfg n) : step s = regRead n { s with timeline := rest } :=
  (step_of_event hv ht).trans (handleEvent_of_readsReg (s := { s with timeline := rest }) h)

/-- A step at the run of a pending continuation takes it out and runs it (R352). -/
theorem step_of_run (hv : s.cfg.valid = true) {k : Nat} (ht : s.timeline = .run k :: rest)
    {c : Continuation} (hc : s.pending[k]? = some c) :
    step s = continueWith c { s with timeline := rest, pending := s.pending.eraseIdx k } := by
  rw [step_of_event hv ht]
  change runPending k _ = _
  unfold runPending
  rw [hc]

/-- A pending response is delivered at its own step, and nothing else happens (R45). -/
theorem step_of_respond (hv : s.cfg.valid = true) {k : Nat} (ht : s.timeline = .run k :: rest)
    {r : AccessResp} (hr : s.pending[k]? = some (.respond r)) :
    step s = .next { s with
      accessOut := s.accessOut ++ [r]
      pending := s.pending.eraseIdx k
      timeline := rest } :=
  step_of_run hv ht hr

/-- The response of an access: delivered at once in atomic mode, pending in timed mode (R150). -/
theorem accessDone_eq (r : AccessResp) (s : State) :
    accessDone r s = .next (if s.cfg.atomicMode then s.respondAccess r
      else { s with pending := s.pending ++ [.respond r] }) := by
  unfold accessDone sched
  split <;> rfl

/-- A COMMAND write stores the word and schedules the executor run (R150). -/
theorem regWrite_command (v : Nat) (s : State) :
    regWrite .command v s = sched .execute executeAndRespond (s.setCommand v) := rfl

/-- Any other write stores its value and is answered (R150). -/
theorem regWrite_of_ne_command {n : RegName} (hn : n ≠ .command) (hreg : s.hasReg n = true)
    (v : Nat) : regWrite n v s = accessDone (.writeDone n) (storeReg n v s) := by
  rw [regWrite, if_pos hreg, if_neg (by simpa [targetsCommand] using hn)]

/-- Settles O10: the write stores the word, and the executor run it causes is scheduled, which in
atomic mode is to run it. -/
theorem commandWriteTriggers : Obligations.CommandWriteTriggers := by
  intro s v ev rest hv ht
  refine ⟨fun hw => ⟨fun hm => ?_, fun hm => ?_⟩, ?_⟩
  · rw [step_of_writesReg hv ht hw, regWrite_command]
    refine sched_timed ?_ _ _
    exact hm
  · rw [step_of_writesReg hv ht hw, regWrite_command]
    refine sched_atomic ?_ _ _
    exact hm
  · rintro a w rfl hw
    exact (step_of_event hv ht).trans (atExternal_of_width_ne hw _)

/-- Settles O11: the new list of endpoints is the one a `setReg` leaves. -/
theorem endpointRegisterWrite : Obligations.EndpointRegisterWrite := by
  intro s e f ev rest hv ht
  refine ⟨fun v hshape he hw => ?_, ?_⟩
  · have hl : e < s.endpoints.length := hshape ▸ he
    refine ⟨(s.setReg e f v).endpoints, by simp, fun x g => ?_,
      fun x => s.setReg_activity e x f v, ?_⟩
    · refine (s.setReg_reg e x f g v).trans ?_
      simp only [hl, true_and, eq_comm (a := f)]
      rfl
    · have hreg : ({ s with timeline := rest } : State).hasReg (.endpoint e f) = true :=
        decide_eq_true he
      rw [step_of_writesReg hv ht hw, regWrite_of_ne_command (by simp) hreg, accessDone_eq]
      rfl
  · rintro k rfl hk
    exact step_of_respond hv ht hk

/-- Settles O12: the value is stored, and the response is the access's own. -/
theorem statusWrite : Obligations.StatusWrite := by
  intro s ev rest hv ht
  refine ⟨fun v hw => ?_, ?_⟩
  · rw [step_of_writesReg hv ht hw, regWrite_of_ne_command (by simp) rfl, accessDone_eq]
    rfl
  · rintro k rfl hk
    exact step_of_respond hv ht hk

/-- What a read of a register that exists returns, and how many free values it draws (R31, U1). -/
theorem regRead_eq {n : RegName} (hn : s.hasReg n = true) :
    ∃ v k, (n = .command → v = s.command ∧ k = s.freeCount) ∧
      (n = .status → v = s.status ∧ k = s.freeCount) ∧
      (∀ e f, n = .endpoint e f → (s.reg e f).written = true →
        v = (s.reg e f).value ∧ k = s.freeCount) ∧
      (∀ e f, n = .endpoint e f → (s.reg e f).written = false →
        v < 2 ^ s.cfg.regWidth ∧ k = s.freeCount + 1) ∧
      regRead n s = accessDone (.readValue n v) { s with freeCount := k } := by
  unfold regRead
  rw [if_pos hn]
  cases n with
  | command =>
    exact ⟨s.command, s.freeCount, fun _ => ⟨rfl, rfl⟩, by simp, by simp, by simp, rfl⟩
  | status =>
    exact ⟨s.status, s.freeCount, by simp, fun _ => ⟨rfl, rfl⟩, by simp, by simp, rfl⟩
  | endpoint e f =>
    dsimp only
    cases hw : (s.reg e f).written with
    | true =>
      refine ⟨(s.reg e f).value, s.freeCount, by simp, by simp, ?_, ?_, if_pos rfl⟩
      · rintro _ _ ⟨⟩ _
        exact ⟨rfl, rfl⟩
      · rintro _ _ ⟨⟩ h
        simp [hw] at h
    | false =>
      refine ⟨fitWord s.cfg (Config.freeWord s.freeCount), s.freeCount + 1, by simp, by simp, ?_,
        ?_, if_neg (by simp)⟩
      · rintro _ _ ⟨⟩ h
        simp [hw] at h
      · rintro _ _ ⟨⟩ _
        exact ⟨fitWord_lt _ _, rfl⟩

/-- Settles O13: by name or by address a read is `regRead`, whose value and draw depend on the
register alone (`regRead_eq`). -/
theorem registerReadHasNoEffect : Obligations.RegisterReadHasNoEffect := by
  intro s ev rest hv ht
  refine ⟨?_, fun n hr hn => ?_, ?_⟩
  · rintro a w rfl hw
    exact (step_of_event hv ht).trans (atExternal_of_width_ne hw _)
  · have hreg : ({ s with timeline := rest } : State).hasReg n = true := by
      cases n with
      | command => rfl
      | status => rfl
      | endpoint e f => exact decide_eq_true (hn e f rfl)
    obtain ⟨v, k, hcommand, hstatus, hwritten, hunwritten, h⟩ := regRead_eq hreg
    refine ⟨v, k, hcommand, hstatus, hwritten, hunwritten, ?_⟩
    rw [step_of_readsReg hv ht hr, h, accessDone_eq]
    rfl
  · rintro k n v rfl hk
    exact step_of_respond hv ht hk

end

/-! ### Reset -/

/-- Settles O16: construction leaves `State.ofConfig`, whose endpoints are all as after reset. -/
theorem resetState : Obligations.ResetState := fun c hv =>
  ⟨State.ofConfig c, construct_of_valid hv, rfl, rfl, rfl, List.length_replicate,
    fun e => by rw [State.activity, State.ofConfig_ep]; rfl,
    fun e f => by rw [State.reg, State.ofConfig_ep, Endpoint.reset_get]; rfl, rfl, rfl, rfl⟩

/-- After construction every register fits its width (R31, R54). -/
theorem State.ofConfig_regsFit (c : Config) : (State.ofConfig c).regsFit := by
  rw [State.regsFit_iff]
  refine ⟨Nat.two_pow_pos _, Nat.two_pow_pos _, fun e f => ?_⟩
  rw [State.reg, State.ofConfig_ep, Endpoint.reset_get]
  exact Nat.two_pow_pos _

/-- After construction every endpoint is Idle and nothing carries it (R54). -/
theorem State.ofConfig_tracked (c : Config) : (State.ofConfig c).tracked := by
  refine ⟨fun e => ?_, by simp [State.ofConfig], by simp [State.ofConfig]⟩
  rw [State.activity, State.ofConfig_ep]
  rfl

/-- Settles O17: part by part, from the endpoints of construction. -/
theorem resetMeetsInvariant : Obligations.ResetMeetsInvariant :=
  ⟨fun c => ⟨List.length_replicate, State.ofConfig_regsFit c,
    ⟨Memory.wf_nil, by simp [State.ofConfig]⟩, fun _ => rfl, State.ofConfig_tracked c⟩, rfl,
    by decide⟩

/-! ### The ports and local memory -/

/-- An address of the space is in a span when it is the address of one of its bytes (R76). -/
theorem inSpan_iff {c : Config} {span : Nat × Nat} {a : Nat} (ha : a < 2 ^ c.regWidth) :
    inSpan c span a = true ↔ ∃ j, j < span.2 ∧ a = byteAddr c span.1 j := by
  have hpos := Nat.two_pow_pos c.regWidth
  simp only [inSpan, decide_eq_true_eq, byteAddr]
  generalize 2 ^ c.regWidth = M at *
  have hdiv := Nat.div_add_mod span.1 M
  have hlt := Nat.mod_lt span.1 hpos
  constructor
  · intro h
    refine ⟨_, h, ?_⟩
    rw [Nat.add_mod_mod]
    have : span.1 + (a + (M - span.1 % M)) = a + M * (span.1 / M + 1) := by
      rw [Nat.mul_add]
      omega
    rw [this, Nat.add_mul_mod_self_left, Nat.mod_eq_of_lt ha]
  · rintro ⟨j, hj, rfl⟩
    rw [Nat.mod_add_mod]
    have : span.1 + j + (M - span.1 % M) = j + M * (span.1 / M + 1) := by
      rw [Nat.mul_add]
      omega
    rw [this, Nat.add_mul_mod_self_left]
    exact (Nat.mod_le j M).trans_lt hj

theorem byteAddr_lt (c : Config) (a i : Nat) : byteAddr c a i < 2 ^ c.regWidth :=
  Nat.mod_lt _ (Nat.two_pow_pos _)

/-- The model's overlap check finds exactly the reads the CPU has written into (R78). -/
theorem Txn.overlapsWrite_iff {c : Config} {g : Txn} :
    g.overlapsWrite c = true ↔ g.racedByCpu c := by
  simp only [Txn.overlapsWrite, Txn.racedByCpu, List.any_eq_true, List.mem_range,
    inSpan_iff (byteAddr_lt ..)]
  constructor
  · rintro ⟨i, hi, span, hspan, j, hj, h⟩
    exact ⟨i, j, span, hi, hspan, hj, h⟩
  · rintro ⟨i, j, span, hi, hspan, hj, h⟩
    exact ⟨i, hi, span, hspan, j, hj, h⟩

/-- A transaction runs the operation it decodes to (R41, R116). -/
theorem atPort_of_decode {s : State} {x : Stimulus} {i : Instr} (h : decode s.cfg x = .ok i) :
    atPort x s = exec i s := by
  rw [atPort, h]

/-- A transaction that is no operation stops the machine (R92, R240, R307). -/
theorem atPort_of_reject {s : State} {x : Stimulus} {r : Reject}
    (h : decode s.cfg x = .error r) : atPort x s = stopOf r := by
  rw [atPort, h]

/-- The memory serves an outstanding read with its bytes, or with free ones (R46, R78). -/
theorem memServe_read {s : State} {e : Nat} {g : Txn}
    (h : s.outstanding.find? (fun t => t.hasTag .mem .localTag e) = some g) :
    memServe .localTag e s = exec (.evTxReadDone e (servedBytes s.cfg s.mem s.freeCount g))
      { s with freeCount := s.freeCount + g.size } := by
  unfold memServe
  rw [h]
  exact atPort_of_decode rfl

/-- The memory serves an outstanding write with its completion (R46). -/
theorem memServe_write {s : State} {f : Nat} {g : Txn}
    (h : s.outstanding.find? (fun t => t.hasTag .mem .forwardedTag f) = some g) :
    memServe .forwardedTag f s = exec (.evRxWriteDone f) s := by
  unfold memServe
  rw [h]
  exact atPort_of_decode rfl

/-- With no such request outstanding there is nothing to serve (log 20). -/
theorem memServe_none {s : State} {d : Disc} {e : Nat}
    (h : ∀ g ∈ s.outstanding, g.hasTag .mem d e = false) : memServe d e s = .next s := by
  rw [memServe, List.find?_eq_none.2 (by simpa using h)]

/-- Settles O8: the fabric's transactions by what they decode to, the memory's own answers by the
request they find, and the CPU's write by the laws of `writeBytes`. -/
theorem stepRunsPortEvent : Obligations.StepRunsPortEvent := by
  intro s rest hv
  refine ⟨fun r i ht hd => (step_of_event hv ht).trans (atPort_of_decode hd),
    fun r i ht hd => (step_of_event hv ht).trans (atPort_of_decode hd),
    fun t i ht hd => (step_of_event hv ht).trans (atPort_of_decode hd),
    fun e g ht hg => ⟨servedBytes s.cfg s.mem s.freeCount g,
      fun hr => if_neg fun h => hr (Txn.overlapsWrite_iff.1 h),
      fun hr => if_pos (Txn.overlapsWrite_iff.2 hr),
      (step_of_event hv ht).trans (memServe_read hg)⟩,
    fun f g ht hg => (step_of_event hv ht).trans (memServe_write hg),
    fun d e ht hg => (step_of_event hv ht).trans (memServe_none hg),
    fun a bs ht hm hl => ⟨writeBytes s.cfg s.mem a bs, step_of_event hv ht,
      writeBytes_wf s.cfg a bs hm, fun i hi => readByte_writeBytes s.cfg hm hl hi,
      fun x hx => readByte_writeBytes_of_ne s.cfg hm fun i hi h => hx ⟨i, hi, h⟩⟩⟩

/-- A response that matches no outstanding tag faults, whatever would follow (R92). -/
theorem takeTag_of_unmatched {p : Port} {d : Disc} {e : Nat} {s : State}
    (h : ∀ g ∈ s.outstanding, g.hasTag p d e = false) (f : State → Ans State) :
    andThen (takeTag p d e s) f = .fault (.unmatchedResponse p d e) := by
  rw [takeTag, if_neg (by simpa using h), andThen_fault]

/-- The completion of a Transmitting endpoint's read: TX_SEND follows, or the data has the wrong
length (R203). -/
theorem txReadDone_of_transmitting {s : State} {e : Nat} {x : TxCtx} {g : Txn}
    (hg : g ∈ s.outstanding) (htag : g.hasTag .mem .localTag e = true)
    (hx : s.activity e = .transmitting x) (d : Bytes) :
    txReadDone e d s =
      if d.length = x.length then
        sched (.txSend e (messageOf s.cfg e x.length d)) (txSend e (messageOf s.cfg e x.length d))
          { s with outstanding := s.outstanding.filter fun y => !y.hasTag .mem .localTag e }
      else .fault (.responseLength e) := by
  rw [txReadDone, takeTag_of_mem hg htag, andThen_next]
  split
  · next y hy =>
    cases hx.symm.trans hy
    rfl
  · next h => exact absurd hx (h x)

theorem decode_memResp_of_failed (c : Config) {r : MemResp} (h : r.failed = true) :
    decode c (.memResp r) = .error (.fabricFailure r.disc r.ep) := if_pos h

theorem decode_memResp_of_write_data (c : Config) {r : MemResp} (hf : r.failed = false)
    (hd : r.disc = .forwardedTag) (h : r.data ≠ []) :
    decode c (.memResp r) = .error (.responseLength r.ep) := by
  simp [decode, decodeMemResp, hf, hd, h]

theorem decode_netResp_of_forwarded (c : Config) {r : NetResp} (hd : r.disc = .forwardedTag) :
    decode c (.netResp r) = .error (.neverIssued r.ep) := by
  rw [decode, decodeNetResp, hd]

theorem decode_netIn_of_length_ne (c : Config) {t : NetIn} (h : t.data.length ≠ t.size) :
    decode c (.netIn t) = .error .netInLength := if_neg h

/-- Settles O37: a response by its tag, a read by its length, and the fabrics' transactions by what
their decoding rejects. -/
theorem fabricFaults : Obligations.FabricFaults := by
  intro s e d k
  refine ⟨fun h => takeTag_of_unmatched h _,
    fun h => ⟨takeTag_of_unmatched h _, takeTag_of_unmatched h _⟩,
    fun h => takeTag_of_unmatched h _,
    fun x g hg htag hx hd => (txReadDone_of_transmitting hg htag hx d).trans (if_neg hd),
    fun addr size reply h => if_neg h, fun hv rest => ⟨?_, ?_, ?_, ?_⟩⟩
  · exact fun t ht h =>
      (step_of_event hv ht).trans (atPort_of_reject (decode_netIn_of_length_ne _ h))
  · exact fun r ht h =>
      (step_of_event hv ht).trans (atPort_of_reject (decode_memResp_of_failed _ h))
  · exact fun r ht hf hd h =>
      (step_of_event hv ht).trans (atPort_of_reject (decode_memResp_of_write_data _ hf hd h))
  · exact fun r ht hd =>
      (step_of_event hv ht).trans (atPort_of_reject (decode_netResp_of_forwarded _ hd))
end Sys2Proof.Machine

namespace Sys2Proof.Machine

/-! ### Registers never written (R55, log 3) -/

section
variable {s : State} {e f : Nat} {r : Field}

/-- A written register is readable. -/
theorem State.readable_of_written {g : Field} (h : (s.reg e g).written = true) :
    s.readable e g = true := by
  simp [State.readable, h]

/-- With R55 to the letter a register never written stops the step, by name. -/
theorem needReg_of_unwritten (hu : s.cfg.unwrittenFaults = true) {g : Field}
    (h : (s.reg e g).written = false) : needReg e g s = .fault (.unwrittenRegister e g) :=
  needReg_of_not_readable (by simp [State.readable, hu, h])

/-- The first unwritten register of a list is its head, or the first of the rest. -/
theorem State.firstUnwritten_cons {g : Field} {gs : List Field}
    (h : s.firstUnwritten e (g :: gs) = some r) :
    (s.reg e g).written = false ∧ r = g ∨
      (s.reg e g).written = true ∧ s.firstUnwritten e gs = some r := by
  unfold State.firstUnwritten at h
  cases hw : (s.reg e g).written with
  | false =>
    rw [List.find?_cons_of_pos (by simp [hw])] at h
    injection h with h
    exact .inl ⟨rfl, h.symm⟩
  | true =>
    rw [List.find?_cons_of_neg (by simp [hw])] at h
    exact .inr ⟨rfl, h⟩

/-- An unwritten head is the first of its list. -/
theorem State.firstUnwritten_of_head {g : Field} {gs : List Field}
    (h : (s.reg e g).written = false) : s.firstUnwritten e (g :: gs) = some g :=
  List.find?_cons_of_pos (by simp [h])

/-- Where a list has no unwritten register, each of them is written. -/
theorem State.written_of_firstUnwritten_eq_none {gs : List Field}
    (h : s.firstUnwritten e gs = none) {g : Field} (hg : g ∈ gs) : (s.reg e g).written = true := by
  simpa using List.find?_eq_none.1 h g hg

/-- A step that needs a list's head first names its first unwritten register when what follows
does. -/
theorem needReg_andThen_unwritten {α : Type} {g : Field} {gs : List Field}
    (hu : s.cfg.unwrittenFaults = true) (h : s.firstUnwritten e (g :: gs) = some r)
    {k : Nat → Ans α} (hk : s.firstUnwritten e gs = some r →
      k (s.reg e g).value = .fault (.unwrittenRegister e r)) :
    andThen (needReg e g s) k = .fault (.unwrittenRegister e r) := by
  obtain ⟨hw, rfl⟩ | ⟨hw, hrest⟩ := State.firstUnwritten_cons h
  · rw [needReg_of_unwritten hu hw, andThen_fault]
  · rw [needReg_of_readable (State.readable_of_written hw), andThen_next, hk hrest]

/-- The ring registers are needed in the order of R180. -/
theorem ringRegs_unwritten {g : Field} (hu : s.cfg.unwrittenFaults = true)
    (h : s.firstUnwritten e [.bufferAddr, .bufferSize, .bufferMessageCount, g] = some r) :
    ringRegs e g s = .fault (.unwrittenRegister e r) :=
  needReg_andThen_unwritten hu h fun h => needReg_andThen_unwritten hu h fun h =>
    needReg_andThen_unwritten hu h fun h => needReg_andThen_unwritten hu h nofun

/-- The captured registers are needed in the order of R201. -/
theorem capture_unwritten (hu : s.cfg.unwrittenFaults = true)
    (hsize : (s.reg e .messageSize).written = true)
    (h : s.firstUnwritten e [.messageAddr, .targetCore, .targetEndpoint] = some r) :
    capture e s = .fault (.unwrittenRegister e r) := by
  refine needReg_andThen_unwritten hu h fun h => ?_
  rw [needReg_of_readable (State.readable_of_written hsize), andThen_next]
  exact needReg_andThen_unwritten hu h fun h => needReg_andThen_unwritten hu h nofun

/-! The receive chain. -/

/-- RX_FINISH needs its four ring registers (R252). -/
theorem rxFinish_unwritten (hu : s.cfg.unwrittenFaults = true) {c : RxCtx}
    (hc : s.activity f = .receiving c)
    (h : s.firstUnwritten f [.bufferAddr, .bufferSize, .bufferMessageCount, .bufferWritePtr] =
      some r) : rxFinish f s = .fault (.unwrittenRegister f r) := by
  unfold rxFinish
  rw [hc]
  dsimp only
  rw [fcAdvanceWrite, ringRegs_unwritten hu h, andThen_fault, andThen_fault]

/-- In atomic mode EV_RX_WRITE_DONE runs RX_FINISH within the step (R251, R351). -/
theorem rxWriteDone_atomic (hm : s.cfg.atomicMode = true) {c : RxCtx}
    (hc : s.activity f = .receiving c) {g : Txn} (hg : g ∈ s.outstanding)
    (htag : g.hasTag .mem .forwardedTag f = true) :
    rxWriteDone f s = rxFinish f
      { s with outstanding := s.outstanding.filter fun x => !x.hasTag .mem .forwardedTag f } := by
  rw [rxWriteDone, takeTag_of_mem hg htag, andThen_next]
  split
  · exact sched_atomic (by exact hm) _ _
  · next h => exact absurd hc (h c)

/-- RX_ISSUE_WRITE needs the write pointer (R250). -/
theorem rxIssueWrite_unwritten_pointer (hu : s.cfg.unwrittenFaults = true) {c : RxCtx}
    (hc : s.activity f = .receiving c) (hw : (s.reg f .bufferWritePtr).written = false) :
    rxIssueWrite f s = .fault (.unwrittenRegister f .bufferWritePtr) := by
  unfold rxIssueWrite
  rw [hc]
  dsimp only
  rw [needReg_of_unwritten hu hw, andThen_fault]

/-- In atomic mode RX_ISSUE_WRITE needs the write pointer, and then, where the memory answers,
RX_FINISH its own registers (R250, R252, R351). -/
theorem rxIssueWrite_unwritten (hu : s.cfg.unwrittenFaults = true)
    (hm : s.cfg.atomicMode = true) {c : RxCtx} (hc : s.activity f = .receiving c)
    (h : s.firstUnwritten f [.bufferWritePtr, .bufferAddr] = some r)
    (hmem : r = .bufferAddr → ∃ ms, memGives s.memAnswers [] [] ms) :
    rxIssueWrite f s = .fault (.unwrittenRegister f r) := by
  unfold rxIssueWrite
  rw [hc]
  refine needReg_andThen_unwritten hu h fun h => ?_
  obtain ⟨hw, rfl⟩ | ⟨-, ⟨⟩⟩ := State.firstUnwritten_cons h
  obtain ⟨ms, hms⟩ := hmem rfl
  dsimp only
  rw [if_pos (by exact hm), memAnswered_of_gives (by exact hms), rxWriteResponse, if_pos rfl,
    rxWriteDone_atomic (by exact hm) (by exact hc)
      (List.mem_append_right _ (List.mem_singleton_self _)) (by simp [Txn.hasTag])]
  refine rxFinish_unwritten (by exact hu) (by exact hc) ?_
  exact State.firstUnwritten_of_head hw

/-- In atomic mode an accepted message runs its chain, and its stops, within the step (R254). -/
theorem rxAccept_unwritten (hu : s.cfg.unwrittenFaults = true) (hm : s.cfg.atomicMode = true)
    (hl : f < s.endpoints.length)
    (h : s.firstUnwritten f [.bufferWritePtr, .bufferAddr] = some r)
    (hmem : r = .bufferAddr → ∃ ms, memGives s.memAnswers [] [] ms) (c : RxCtx) :
    rxAccept f c s = .fault (.unwrittenRegister f r) := by
  refine (sched_atomic (by exact hm) _ _).trans
    (rxIssueWrite_unwritten (by exact hu) (by exact hm) (c := c) ?_ ?_ hmem)
  · rw [State.setActivity_activity, if_pos ⟨rfl, hl⟩]
  · simpa only [State.firstUnwritten, State.setActivity_reg] using h

/-- What `arrivalUnwritten` names: MODE, or, past the checks of mode and state, a register of the
occupancy check or, in atomic mode with room, one of the chain. -/
theorem State.arrivalUnwritten_eq_some (h : s.arrivalUnwritten f = some r) :
    (s.reg f .mode).written = false ∧ r = .mode ∨
    ((s.reg f .mode).written = true ∧ (s.reg f .mode).value = modeReceive ∧
      s.activity f = .idle) ∧
      (s.firstUnwritten f [.bufferMessageCount, .bufferSize] = some r ∨
        s.firstUnwritten f [.bufferMessageCount, .bufferSize] = none ∧ s.cfg.atomicMode = true ∧
          (s.reg f .bufferMessageCount).value < (s.reg f .bufferSize).value ∧
          s.firstUnwritten f [.bufferWritePtr, .bufferAddr] = some r) := by
  unfold State.arrivalUnwritten at h
  split at h
  · next hw =>
    injection h with h
    exact .inl ⟨hw, h.symm⟩
  · next hw =>
    split at h
    · cases h
    · next hc =>
      obtain ⟨hvalue, hidle⟩ := not_or.1 hc
      refine .inr ⟨⟨by simpa using hw, not_not.1 hvalue, not_not.1 hidle⟩, ?_⟩
      split at h
      · next r' hr =>
        injection h with h
        exact .inl (h ▸ hr)
      · next hnone =>
        split at h
        · next hroom => exact .inr ⟨hnone, hroom.1, hroom.2, h⟩
        · cases h

/-- A well-formed message of legal size, past the checks of mode and state. -/
theorem rxMessage_eq {size sc se n : Nat} {data payload : Bytes}
    (hsplit : splitMessage data = some (sc, se, n, payload)) (hn : 0 < n)
    (hsize : n + Config.headerSize = size) (hmax : size ≤ s.cfg.maxMessageSize) (reply : Reply) :
    rxMessage f size data reply s =
      andThen (needReg f .bufferMessageCount s) fun occ =>
      andThen (needReg f .bufferSize s) fun cap =>
      if ringFull occ cap then .next (rxReject reply .bufferFull f s)
      else rxAccept f ⟨sc, se, n, payload, reply⟩ s := by
  unfold rxMessage
  rw [hsplit]
  dsimp only
  rw [if_neg (by omega), if_neg (by omega)]

/-- An arrival in range, in receive mode, at an Idle endpoint (R241). -/
theorem rxArrive_eq {addr : Nat} (hf : s.cfg.netEpOf addr = f) (hr : f < s.cfg.endpointCount)
    (hread : s.readable f .mode = true) (hmode : (s.reg f .mode).value = modeReceive)
    (hidle : s.activity f = .idle) (size : Nat) (data : Bytes) (reply : Reply) :
    rxArrive addr size data reply s = rxMessage f size data reply s := by
  subst hf
  unfold rxArrive
  dsimp only
  rw [if_neg (not_le.2 hr), needReg_of_readable hread, andThen_next, hmode,
    if_neg (by decide), if_neg (by simp), if_neg (by simp [State.isIdle, hidle])]

/-- An arrival in range needs MODE first (R241). -/
theorem rxArrive_unwritten_mode (hu : s.cfg.unwrittenFaults = true) {addr : Nat}
    (hf : s.cfg.netEpOf addr = f) (hr : f < s.cfg.endpointCount)
    (hw : (s.reg f .mode).written = false) (size : Nat) (data : Bytes) (reply : Reply) :
    rxArrive addr size data reply s = .fault (.unwrittenRegister f .mode) := by
  subst hf
  unfold rxArrive
  dsimp only
  rw [if_neg (not_le.2 hr), needReg_of_unwritten hu hw, andThen_fault]

/-- The arrival of a well-formed message of legal size names the register `arrivalUnwritten` finds
(R241, R250, R252). -/
theorem rxArrive_unwritten (hu : s.cfg.unwrittenFaults = true) (hshape : s.shaped) {addr : Nat}
    (hf : s.cfg.netEpOf addr = f) (hr : f < s.cfg.endpointCount)
    (h : s.arrivalUnwritten f = some r)
    (hmem : r = .bufferAddr → ∃ ms, memGives s.memAnswers [] [] ms)
    {size sc se n : Nat} {data payload : Bytes}
    (hsplit : splitMessage data = some (sc, se, n, payload)) (hn : 0 < n)
    (hsize : n + Config.headerSize = size) (hmax : size ≤ s.cfg.maxMessageSize) (reply : Reply) :
    rxArrive addr size data reply s = .fault (.unwrittenRegister f r) := by
  obtain ⟨hw, rfl⟩ | ⟨⟨hw, hmode, hidle⟩, h⟩ := State.arrivalUnwritten_eq_some h
  · exact rxArrive_unwritten_mode hu hf hr hw ..
  · rw [rxArrive_eq hf hr (State.readable_of_written hw) hmode hidle,
      rxMessage_eq hsplit hn hsize hmax]
    obtain h | ⟨hnone, hm, hroom, h⟩ := h
    · exact needReg_andThen_unwritten hu h fun h => needReg_andThen_unwritten hu h nofun
    · have hwritten {g : Field} (hg : g ∈ [Field.bufferMessageCount, .bufferSize]) :=
        State.readable_of_written (State.written_of_firstUnwritten_eq_none hnone hg)
      rw [needReg_of_readable (hwritten (by simp)), andThen_next,
        needReg_of_readable (hwritten (by simp)), andThen_next,
        if_neg (by simpa [ringFull] using hroom)]
      exact rxAccept_unwritten hu hm (hshape ▸ hr) h hmem _

/-! The transmit chain. -/

/-- What a sender builds splits into its parts again (R112, R205, R246). -/
theorem splitMessage_messageOf (c : Config) (e : Nat) {len : Nat} (hlen : len < 65536)
    (payload : Bytes) : splitMessage (messageOf c e len payload) =
      some (c.coreId % 256, e % 256, len, payload) := by
  have hlength : ofLe16 (BitVec.ofNat 8 (len % 256)) (BitVec.ofNat 8 (len / 256)) = len := by
    simp only [ofLe16, BitVec.toNat_ofNat]
    omega
  simp [messageOf, header, le16, splitMessage, hlength]

/-- In atomic mode a message to the unit's own core stops where its receive chain stops (R210). -/
theorem txSend_own_fault (hm : s.cfg.atomicMode = true) {x : TxCtx} {msg : Bytes} {q : Fault}
    (hx : s.activity e = .transmitting x)
    (hcore : s.cfg.netCoreOf (s.cfg.encodeNetworkAddress x.targetCore x.targetEp) = s.cfg.coreId)
    (h : rxArrive (s.cfg.encodeNetworkAddress x.targetCore x.targetEp)
      (Config.headerSize + x.length) msg (.own e) (s.issueNet (sendReq s.cfg e x msg)) = .fault q) :
    txSend e msg s = .fault q := by
  unfold txSend
  rw [hx]
  dsimp only
  rw [netAnswer, if_pos (by exact hm), if_pos (by exact hcore)]
  exact andThen_eq_fault.2 (.inl h)

/-- In atomic mode EV_TX_READ_DONE of a message for the unit's own core names the register its
receive chain needs (R203, R210, R351). -/
theorem txReadDone_unwritten (hu : s.cfg.unwrittenFaults = true) (hm : s.cfg.atomicMode = true)
    (hv : s.cfg.valid = true) (hshape : s.shaped) {x : TxCtx} {g : Txn} {d : Bytes}
    (hg : g ∈ s.outstanding) (htag : g.hasTag .mem .localTag e = true)
    (hx : s.activity e = .transmitting x) (hd : d.length = x.length) (hpos : 1 ≤ x.length)
    (hmax : x.length + 4 ≤ s.cfg.maxMessageSize)
    (hcore : s.cfg.netCoreOf (s.cfg.encodeNetworkAddress x.targetCore x.targetEp) = s.cfg.coreId)
    (hf : s.cfg.netEpOf (s.cfg.encodeNetworkAddress x.targetCore x.targetEp) = f)
    (hr : f < s.cfg.endpointCount) (h : s.arrivalUnwritten f = some r)
    (hmem : r = .bufferAddr → ∃ ms, memGives s.memAnswers [] [] ms) :
    txReadDone e d s = .fault (.unwrittenRegister f r) := by
  have hlen : x.length < 65536 := by
    have := (Config.valid_iff s.cfg).1 hv
    omega
  rw [txReadDone_of_transmitting hg htag hx, if_pos hd, sched_atomic (by exact hm)]
  refine txSend_own_fault (by exact hm) (by exact hx) (by exact hcore) ?_
  exact rxArrive_unwritten (by exact hu) (by exact hshape) (by exact hf) (by exact hr)
    (by exact h) (by exact hmem) (splitMessage_messageOf s.cfg e hlen d) hpos
    (Nat.add_comm ..) (by exact (Nat.add_comm 4 _).trans_le hmax) _

/-- In atomic mode TX_ISSUE_READ hands the memory's data to TX_READ_DONE (R202, R351). -/
theorem txIssueRead_atomic (hm : s.cfg.atomicMode = true) {x : TxCtx}
    (hx : s.activity e = .transmitting x) {d : Bytes} {ms : List MemAnswer}
    (hms : memGives s.memAnswers (readBytes s.cfg s.mem x.msgAddr x.length) d ms) :
    txIssueRead e s = txReadDone e d
      { s.issueMem ⟨x.msgAddr, x.length, .read, [], .localTag, e⟩ with memAnswers := ms } := by
  unfold txIssueRead
  rw [hx]
  dsimp only
  rw [if_pos (by exact hm)]
  exact memAnswered_of_gives (by exact hms) _

/-- A START in range runs `startOn` (R151). -/
theorem exec_startOperation_of_lt (he : e < s.cfg.endpointCount) (off : Nat) :
    exec (.startOperation e off) s = startOn e s := if_neg (not_le.2 he)

/-- Past the checks of mode and state a START needs MESSAGE_SIZE (R153). -/
theorem startOn_of_idle (hread : s.readable e .mode = true) (hmode : (s.reg e .mode).value = 0)
    (hidle : s.activity e = .idle) :
    startOn e s = andThen (needReg e .messageSize s) fun len =>
      if sizeViolates s.cfg len then .next (s.raise .exec .sizeLimit e 0) else txAccept e s := by
  rw [startOn, needReg_of_readable hread, andThen_next, hmode, if_neg (by decide),
    if_neg (by decide), if_neg (by simp [State.isIdle, hidle])]

/-- A START of a message of legal size goes on to TX_ACCEPT (R153, R156). -/
theorem startOn_eq_txAccept (hread : s.readable e .mode = true)
    (hmode : (s.reg e .mode).value = 0) (hidle : s.activity e = .idle)
    (hsize : s.readable e .messageSize = true) (hpos : 1 ≤ (s.reg e .messageSize).value)
    (hmax : (s.reg e .messageSize).value + 4 ≤ s.cfg.maxMessageSize) :
    startOn e s = txAccept e s := by
  rw [startOn_of_idle hread hmode hidle, needReg_of_readable hsize, andThen_next, if_neg]
  simp only [sizeViolates, Bool.or_eq_true, decide_eq_true_eq, not_or, not_lt]
  exact ⟨Nat.one_le_iff_ne_zero.1 hpos, hmax⟩

/-- What an arrival at `f` needs is not changed by another endpoint's acceptance. -/
theorem State.arrivalUnwritten_congr {t : State} (hcfg : t.cfg = s.cfg)
    (hreg : ∀ g, t.reg f g = s.reg f g) (ha : t.activity f = s.activity f) :
    t.arrivalUnwritten f = s.arrivalUnwritten f := by
  simp only [State.arrivalUnwritten, State.firstUnwritten, hcfg, hreg, ha]

/-- An endpoint in transmit mode needs nothing more of an arrival than its MODE. -/
theorem State.arrivalUnwritten_of_transmit (hw : (s.reg e .mode).written = true)
    (hmode : (s.reg e .mode).value = 0) : s.arrivalUnwritten e = none := by
  simp [State.arrivalUnwritten, hw, hmode]

/-- In atomic mode an accepted START of a message for the unit's own core names the register its
receive chain needs (R201, R210, R351). -/
theorem txAccept_unwritten (hu : s.cfg.unwrittenFaults = true) (hm : s.cfg.atomicMode = true)
    (hv : s.cfg.valid = true) (hshape : s.shaped) (he : e < s.cfg.endpointCount) {x : TxCtx}
    (hcapture : capture e s = .next x) (hpos : 1 ≤ x.length)
    (hmax : x.length + 4 ≤ s.cfg.maxMessageSize)
    (hcore : s.cfg.netCoreOf (s.cfg.encodeNetworkAddress x.targetCore x.targetEp) = s.cfg.coreId)
    (hf : s.cfg.netEpOf (s.cfg.encodeNetworkAddress x.targetCore x.targetEp) = f)
    (hne : f ≠ e) (hr : f < s.cfg.endpointCount) (h : s.arrivalUnwritten f = some r)
    {d : Bytes} {ms : List MemAnswer}
    (hms : memGives s.memAnswers (readBytes s.cfg s.mem x.msgAddr x.length) d ms)
    (hd : d.length = x.length)
    (hmem : r = .bufferAddr → ∃ ms2, memGives ms [] [] ms2) :
    txAccept e s = .fault (.unwrittenRegister f r) := by
  have hx : ((s.setStatus statusBusy).setActivity e (.transmitting x)).activity e =
      .transmitting x := by
    rw [State.setActivity_activity, if_pos ⟨rfl, hshape ▸ he⟩]
  have hshaped : ((s.setStatus statusBusy).setActivity e (.transmitting x)).shaped :=
    (Update.setActivity e _).keeps_shaped hshape
  have hkept : ((s.setStatus statusBusy).setActivity e (.transmitting x)).arrivalUnwritten f =
      some r := by
    rw [← h]
    refine State.arrivalUnwritten_congr rfl (fun g => State.setActivity_reg ..) ?_
    rw [State.setActivity_activity, if_neg fun hc => hne hc.1]
    rfl
  rw [txAccept, hcapture, andThen_next, sched_atomic (by exact hm),
    txIssueRead_atomic (by exact hm) hx (by exact hms)]
  refine txReadDone_unwritten (by exact hu) (by exact hm) (by exact hv)
    (by exact hshaped)
    (List.mem_append_right _ (List.mem_singleton_self _)) ?_ (by exact hx) hd hpos hmax hcore hf hr
    (by exact hkept) hmem
  simp [Txn.hasTag]

end

/-- Settles O50: each reader meets its registers in the pseudocode's order, and stops at the first
that is unwritten. -/
theorem unwrittenRegisterFaults : Obligations.UnwrittenRegisterFaults := by
  intro s e hu he
  refine ⟨fun off hw => ?_, fun off hw hmode hidle hsize => ?_,
    fun off hw hmode hidle hsize hpos hmax => ?_, fun off r h => ?_,
    fun addr data reply hf hw => ?_,
    fun addr sc se lo hi payload reply n r hshape hf hn hlen hpos hmax h hmem => ?_,
    fun g d x naddr f r hm hv hshape hg htag hx hd hpos hmax hnaddr hcore hf hr h hmem => ?_,
    fun c r hc h => ⟨fun g hm hg htag => ?_, fun k rest hv ht hk => ?_⟩,
    fun c k rest hv ht hc hk hw => ?_⟩
  · rw [exec_startOperation_of_lt he, startOn, needReg_of_unwritten hu hw, andThen_fault]
  · rw [exec_startOperation_of_lt he,
      startOn_of_idle (State.readable_of_written hw) hmode hidle, needReg_of_unwritten hu hsize,
      andThen_fault]
  · rw [exec_startOperation_of_lt he, startOn_eq_txAccept (State.readable_of_written hw) hmode hidle
      (State.readable_of_written hsize) hpos hmax]
    refine ⟨fun r h => ?_, fun hnone hm hv hshape naddr f r hnaddr hcore hf hr h d ms hms hd hmem =>
      ?_⟩
    · rw [txAccept, capture_unwritten hu hsize h, andThen_fault]
    · subst hnaddr
      have hread {g : Field} (hg : g ∈ [Field.messageAddr, .targetCore, .targetEndpoint]) :=
        State.readable_of_written (State.written_of_firstUnwritten_eq_none hnone hg)
      have hcapture := capture_of_readable (hread (by simp)) (State.readable_of_written hsize)
        (hread (by simp)) (hread (by simp))
      have hne : f ≠ e := by
        rintro rfl
        simp [State.arrivalUnwritten_of_transmit hw hmode] at h
      exact txAccept_unwritten hu hm hv hshape he hcapture hpos hmax hcore hf.symm hne hr h hms hd
        hmem
  · refine (if_neg (not_le.2 he)).trans ?_
    rw [fcAdvanceRead, ringRegs_unwritten hu h, andThen_fault]
  · exact (if_pos rfl).trans (rxArrive_unwritten_mode hu hf he hw ..)
  · have hlength : (sc :: se :: lo :: hi :: payload).length = 4 + n := by
      simp only [List.length_cons, ← hlen]
      omega
    have hsplit : splitMessage (sc :: se :: lo :: hi :: payload) =
        some (sc.toNat, se.toNat, n, payload) := by
      rw [hn]
      rfl
    exact (if_pos hlength).trans (rxArrive_unwritten hu hshape hf he h hmem hsplit hpos
      (Nat.add_comm ..) hmax reply)
  · subst hnaddr
    exact txReadDone_unwritten hu hm hv hshape hg htag hx hd hpos hmax hcore hf.symm hr h hmem
  · exact (rxWriteDone_atomic hm hc hg htag).trans (rxFinish_unwritten hu hc h)
  · exact (step_of_run hv ht hk).trans (rxFinish_unwritten (by exact hu) (by exact hc) (by exact h))
  · exact (step_of_run hv ht hk).trans
      (rxIssueWrite_unwritten_pointer (by exact hu) (by exact hc) (by exact hw))
end Sys2Proof.Machine

namespace Sys2Proof.Machine

/-! ### Local memory

The one update that writes bytes is `State.writeMem`, which keeps the canonical form. Of the
operations only RX_ISSUE_WRITE stores, once, at the write pointer of its endpoint; the others store
what it stores where they run it within their step, in atomic mode (R71, R351). -/

/-- Every update keeps the canonical form and the bounds of local memory (R70, R76). -/
theorem Update.keeps_memOk {s t : State} (h : Update s t) (hs : s.memOk) : t.memOk := by
  obtain ⟨hwf, hbound⟩ := hs
  cases h with
  | writeMem a bs =>
    exact ⟨writeBytes_wf s.cfg a bs hwf, fun x hx => (mem_writeBytes s.cfg hx).elim id (hbound x)⟩
  | _ => exact ⟨hwf, hbound⟩

/-- Settles O51: every step is a chain of updates, and each of them keeps the form. -/
theorem memoryFormKept : Obligations.MemoryFormKept := fun _ _ hs h =>
  step_keeps (fun _ _ => Update.keeps_memOk) h hs

/-- What a scheduled continuation can answer: it runs at once, or becomes pending (R351, R352). -/
theorem sched_eq_next {k : Continuation} {now : State → Ans State} {s t : State}
    (h : sched k now s = .next t) :
    s.cfg.atomicMode = true ∧ now s = .next t ∨
      s.cfg.atomicMode = false ∧ t = { s with pending := s.pending ++ [k] } := by
  cases hm : s.cfg.atomicMode with
  | true => exact .inl ⟨rfl, sched_atomic hm k now ▸ h⟩
  | false =>
    rw [sched_timed hm] at h
    injection h with h
    exact .inr ⟨rfl, h.symm⟩

section
variable {s t : State} {e f n : Nat}

/-! The operations that store nothing. -/

theorem fcAdvanceWrite_mem {x : State × NetStatus} (h : fcAdvanceWrite f s = .next x) :
    x.1.mem = s.mem := by
  obtain ⟨-, rfl⟩ | ⟨-, rfl⟩ := fcAdvanceWrite_eq_next h <;> rfl

theorem fcAdvanceRead_mem (h : fcAdvanceRead e s = .next t) : t.mem = s.mem := by
  obtain ⟨-, rfl⟩ | ⟨-, rfl⟩ := fcAdvanceRead_eq_next h <;> rfl

theorem rxFinish_mem (h : rxFinish f s = .next t) : t.mem = s.mem := by
  unfold rxFinish at h
  split at h
  · obtain ⟨r, hr, ⟨⟩⟩ := andThen_eq_next.1 h
    exact fcAdvanceWrite_mem hr
  · cases h

theorem rxWriteDone_mem (h : rxWriteDone f s = .next t) : t.mem = s.mem := by
  obtain ⟨u, hu, h⟩ := andThen_eq_next.1 h
  obtain ⟨-, rfl⟩ := takeTag_eq_next hu
  split at h
  · obtain ⟨-, h⟩ | ⟨-, rfl⟩ := sched_eq_next h
    · exact (rxFinish_mem h :)
    · rfl
  · cases h
    rfl

theorem rxWriteResponse_mem {data : Bytes} (h : rxWriteResponse f data s = .next t) :
    t.mem = s.mem := by
  unfold rxWriteResponse at h
  split at h
  · exact rxWriteDone_mem h
  · cases h

@[simp] theorem txFinal_mem (e : Nat) (st : NetStatus) (s : State) :
    (txFinal e st s).mem = s.mem := by
  cases st <;> rfl

theorem txResponded_mem {st : NetStatus} (h : txResponded e st s = .next t) : t.mem = s.mem := by
  obtain ⟨u, hu, h⟩ := andThen_eq_next.1 h
  obtain ⟨-, rfl⟩ := takeTag_eq_next hu
  split at h
  · obtain ⟨-, ⟨⟩⟩ | ⟨-, rfl⟩ := sched_eq_next h
    · exact txFinal_mem ..
    · rfl
  · cases h
    rfl

/-- An operation that stores nothing past its range check stores nothing (R151). -/
theorem inRange_mem {k : Ans State} (hk : k = .next t → t.mem = s.mem)
    (h : inRange e s k = .next t) : t.mem = s.mem := by
  unfold inRange at h
  split at h
  · cases h
    rfl
  · exact hk h

/-! The operations that may store. -/

/-- Local memory of `t` is that of `s`, or, in atomic mode, that of `s` with one write of `n` bytes
at the write pointer of endpoint `f`. -/
def StoredAt (f n : Nat) (s t : State) : Prop :=
  t.mem = s.mem ∨ s.cfg.atomicMode = true ∧ ∃ bs : Bytes, bs.length = n ∧
    t.mem = writeBytes s.cfg s.mem (s.reg f .bufferWritePtr).value bs

/-- An outcome with the memory of `s`. -/
theorem StoredAt.of_next {u : State} (h : (.next u : Ans State) = .next t)
    (hu : u.mem = s.mem) : StoredAt f n s t := by
  cases h
  exact .inl hu

theorem StoredAt.mem_of_timed (h : StoredAt f n s t) (hm : s.cfg.atomicMode = false) :
    t.mem = s.mem := by
  obtain h | ⟨hatomic, -⟩ := h
  · exact h
  · simp [hm] at hatomic

/-- Every byte outside the one write is as it was (R71, R76). -/
theorem StoredAt.readByte_eq (h : StoredAt f n s t) (hs : s.mem.wf) {a : Nat}
    (ha : ¬ covered s.cfg (s.reg f .bufferWritePtr).value n a) :
    readByte t.mem a = readByte s.mem a := by
  obtain h | ⟨-, bs, rfl, h⟩ := h
  · rw [h]
  · rw [h]
    exact readByte_writeBytes_of_ne s.cfg hs fun i hi hx => ha ⟨i, hi, hx⟩

/-- A write in atomic mode, as seen from a state with the same memory and write pointer. -/
theorem StoredAt.congr {u v : State} (h : StoredAt f n u v) (hcfg : u.cfg = s.cfg)
    (hmem : u.mem = s.mem) (hptr : u.reg f .bufferWritePtr = s.reg f .bufferWritePtr)
    (ht : t.mem = v.mem) : StoredAt f n s t := by
  unfold StoredAt at *
  rwa [ht, ← hcfg, ← hmem, ← hptr]

/-- RX_ISSUE_WRITE stores the captured payload at the write pointer (R250). -/
theorem rxIssueWrite_mem (h : rxIssueWrite f s = .next t) :
    ∃ c, s.activity f = .receiving c ∧
      t.mem = writeBytes s.cfg s.mem (s.reg f .bufferWritePtr).value c.payload := by
  unfold rxIssueWrite at h
  split at h
  · next c hc =>
    obtain ⟨wptr, hw, h⟩ := andThen_eq_next.1 h
    obtain rfl := (needReg_eq_next hw).2
    refine ⟨c, hc, ?_⟩
    dsimp only at h
    split at h
    · obtain ⟨data, ms, -, h⟩ | ⟨-, rfl⟩ := memAnswered_eq_next h
      · exact rxWriteResponse_mem h
      · rfl
    · cases h
      rfl
  · cases h

/-- An accepted message is stored within the step in atomic mode only (R248, R351). -/
theorem rxAccept_storedAt {c : RxCtx} (hidle : s.activity f = .idle)
    (h : rxAccept f c s = .next t) : StoredAt f c.payload.length s t := by
  obtain ⟨hm, h⟩ | ⟨-, rfl⟩ := sched_eq_next h
  · obtain ⟨c', hc', hmem⟩ := rxIssueWrite_mem h
    rw [State.setActivity_activity] at hc'
    split at hc'
    · cases hc'
      exact .inr ⟨hm, c.payload, rfl, by rw [hmem, State.setActivity_reg]; rfl⟩
    · simp [hidle] at hc'
  · exact .inl rfl

theorem length_of_splitMessage {data payload : Bytes} {sc se k : Nat}
    (h : splitMessage data = some (sc, se, k, payload)) : payload.length = data.length - 4 := by
  unfold splitMessage at h
  split at h
  · cases h
    simp
  · cases h

theorem rxMessage_storedAt {size : Nat} {data : Bytes} {reply : Reply}
    (hidle : s.activity f = .idle) (h : rxMessage f size data reply s = .next t) :
    StoredAt f (data.length - 4) s t := by
  unfold rxMessage at h
  split at h
  · exact .of_next h rfl
  · next sc se k payload hsplit =>
    split_ifs at h
    · exact .of_next h rfl
    · exact .of_next h rfl
    · obtain ⟨occ, -, h⟩ := andThen_eq_next.1 h
      obtain ⟨cap, -, h⟩ := andThen_eq_next.1 h
      split at h
      · exact .of_next h rfl
      · exact length_of_splitMessage hsplit ▸ rxAccept_storedAt hidle h

/-- An arrival stores its payload at the addressed endpoint's write pointer (R250, R254). -/
theorem rxArrive_storedAt {addr size : Nat} {data : Bytes} {reply : Reply}
    (h : rxArrive addr size data reply s = .next t) :
    StoredAt (s.cfg.netEpOf addr) (data.length - 4) s t := by
  unfold rxArrive at h
  dsimp only at h
  split at h
  · exact .of_next h rfl
  · obtain ⟨m, -, h⟩ := andThen_eq_next.1 h
    split_ifs at h with _ _ hidle
    · exact .of_next h rfl
    · exact .of_next h rfl
    · exact .of_next h rfl
    · exact rxMessage_storedAt (by simpa [State.isIdle] using hidle) h

/-- The network's part stores what the receive chain of the unit's own core stores (R210, R351). -/
theorem netAnswer_storedAt {r : NetReq} (h : netAnswer e r s = .next t) :
    StoredAt (s.cfg.netEpOf r.addr) (r.data.length - 4) s t := by
  unfold netAnswer at h
  split_ifs at h
  · obtain ⟨u, hu, h⟩ := andThen_eq_next.1 h
    have hstored := rxArrive_storedAt hu
    split at h
    · exact hstored.congr rfl rfl rfl (txResponded_mem h)
    · cases h
      exact hstored
  · split at h
    · exact .inl (txResponded_mem h :)
    · exact .of_next h rfl
  · exact .of_next h rfl

/-- The endpoint a message of this context goes to, at its core (R110, R111). -/
def TxCtx.receiver (c : Config) (x : TxCtx) : Nat :=
  c.netEpOf (c.encodeNetworkAddress x.targetCore x.targetEp)

theorem txSend_storedAt {x : TxCtx} {msg : Bytes} (hx : s.activity e = .transmitting x)
    (h : txSend e msg s = .next t) : StoredAt (x.receiver s.cfg) (msg.length - 4) s t := by
  unfold txSend at h
  rw [hx] at h
  exact (netAnswer_storedAt h).congr rfl rfl rfl rfl

/-- A completed read stores nothing, or what the message it carries on stores (R203, R210). -/
theorem txReadDone_storedAt {d : Bytes} (h : txReadDone e d s = .next t) :
    t.mem = s.mem ∨
      ∃ x, s.activity e = .transmitting x ∧ StoredAt (x.receiver s.cfg) x.length s t := by
  obtain ⟨u, hu, h⟩ := andThen_eq_next.1 h
  obtain ⟨-, rfl⟩ := takeTag_eq_next hu
  split at h
  · next x hx =>
    split at h
    · next hd =>
      obtain ⟨-, h⟩ | ⟨-, rfl⟩ := sched_eq_next h
      · refine .inr ⟨x, hx, ?_⟩
        have hlength : (messageOf s.cfg e x.length d).length - 4 = x.length := by
          simp [messageOf, header, le16, hd]
        exact hlength ▸ (txSend_storedAt hx h).congr rfl rfl rfl rfl
      · exact .inl rfl
    · cases h
  · cases h
    exact .inl rfl

theorem txIssueRead_storedAt {x : TxCtx} (hx : s.activity e = .transmitting x)
    (h : txIssueRead e s = .next t) : StoredAt (x.receiver s.cfg) x.length s t := by
  unfold txIssueRead at h
  rw [hx] at h
  dsimp only at h
  split at h
  · obtain ⟨data, ms, -, h⟩ | ⟨-, rfl⟩ := memAnswered_eq_next h
    · obtain h | ⟨y, hy, h⟩ := txReadDone_storedAt h
      · exact .inl h
      · cases hx.symm.trans hy
        exact h.congr rfl rfl rfl rfl
    · exact .inl rfl
  · exact .of_next h rfl

/-- An accepted START stores what its message stores (R201, R210, R351). -/
theorem txAccept_storedAt (hidle : s.activity e = .idle) (h : txAccept e s = .next t) :
    StoredAt (s.cfg.netEpOf (s.cfg.encodeNetworkAddress (s.reg e .targetCore).value
      (s.reg e .targetEndpoint).value)) (s.reg e .messageSize).value s t := by
  obtain ⟨x, hx, h⟩ := andThen_eq_next.1 h
  obtain rfl := capture_eq_next hx
  obtain ⟨-, h⟩ | ⟨-, rfl⟩ := sched_eq_next h
  · have hactivity := (s.setStatus statusBusy).setActivity_activity e e (.transmitting
      ⟨(s.reg e .messageAddr).value, (s.reg e .messageSize).value, (s.reg e .targetCore).value,
        (s.reg e .targetEndpoint).value⟩)
    split at hactivity
    · exact (txIssueRead_storedAt hactivity h).congr rfl rfl (State.setActivity_reg ..) rfl
    · unfold txIssueRead at h
      rw [hactivity.trans hidle] at h
      cases h
  · exact .inl rfl

theorem exec_startOperation_storedAt {off : Nat} (h : exec (.startOperation e off) s = .next t) :
    StoredAt (s.cfg.netEpOf (s.cfg.encodeNetworkAddress (s.reg e .targetCore).value
      (s.reg e .targetEndpoint).value)) (s.reg e .messageSize).value s t := by
  change inRange e s (startOn e s) = .next t at h
  unfold inRange at h
  split at h
  · exact .of_next h rfl
  · obtain ⟨m, -, h⟩ := andThen_eq_next.1 h
    split_ifs at h with _ _ hidle
    · exact .of_next h rfl
    · exact .of_next h rfl
    · exact .of_next h rfl
    · obtain ⟨len, -, h⟩ := andThen_eq_next.1 h
      split at h
      · exact .of_next h rfl
      · exact txAccept_storedAt (by simpa [State.isIdle] using hidle) h

theorem exec_evRxMsg_storedAt {addr size : Nat} {data : Bytes} {reply : Reply}
    (h : exec (.evRxMsg addr size data reply) s = .next t) :
    StoredAt (s.cfg.netEpOf addr) (size - 4) s t := by
  change execEvRxMsg addr size data reply s = .next t at h
  unfold execEvRxMsg at h
  split at h
  · next hsize => exact hsize ▸ rxArrive_storedAt h
  · cases h

end

/-- Settles O48: a storing operation stores in atomic mode only, and the others never. -/
theorem nonStoringKeepMemory : Obligations.NonStoringKeepMemory := by
  intro s t i h hi a
  suffices t.mem = s.mem by rw [this]
  cases i with
  | idle e off => exact inRange_mem (by rintro ⟨⟩; rfl) h
  | startOperation e off =>
    exact (exec_startOperation_storedAt h).mem_of_timed (hi.resolve_right id)
  | incrementReadPointer e off => exact inRange_mem fcAdvanceRead_mem h
  | invalidOpcode op e off => exact inRange_mem (by rintro ⟨⟩; rfl) h
  | evTxReadDone e d =>
    obtain h | ⟨x, -, h⟩ := txReadDone_storedAt h
    · exact h
    · exact h.mem_of_timed (hi.resolve_right id)
  | evTxAck e => exact txResponded_mem h
  | evTxNack e k => exact txResponded_mem h
  | evRxMsg addr size data reply =>
    exact (exec_evRxMsg_storedAt h).mem_of_timed (hi.resolve_right id)
  | evRxUnsupported addr reply =>
    cases h
    rfl
  | evRxWriteDone f => exact rxWriteDone_mem h

/-- Settles O49: each of the three makes at most the one write of `StoredAt`. -/
theorem storingFrame : Obligations.StoringFrame := by
  intro s t hs
  refine ⟨fun addr size data reply h a => (exec_evRxMsg_storedAt h).readByte_eq hs, ?_, ?_⟩
  · rintro e d x f h hx rfl a ha
    obtain hmem | ⟨y, hy, hstored⟩ := txReadDone_storedAt h
    · rw [hmem]
    · cases hx.symm.trans hy
      exact hstored.readByte_eq hs ha
  · rintro e off f h rfl a ha
    exact (exec_startOperation_storedAt h).readByte_eq hs ha

/-! ### The chains of atomic mode

An endpoint that no transaction is outstanding for issues its request, and the answer takes just
that tag out again (R40, R351). -/

section
variable {s : State} {e f : Nat}

/-- No tag of an endpoint without a transaction is found. -/
theorem filter_hasTag_of_ep_ne {l : List Txn} (h : ∀ t ∈ l, t.ep ≠ e) (p : Port) (d : Disc) :
    l.filter (fun y => !y.hasTag p d e) = l := by
  refine List.filter_eq_self.2 fun t ht => ?_
  simp [Txn.hasTag, h t ht]

/-- The tag just added is the one that is taken out. -/
theorem filter_hasTag_append {l : List Txn} (h : ∀ t ∈ l, t.ep ≠ e) {p : Port} {d : Disc} {g : Txn}
    (hg : g.hasTag p d e = true) : (l ++ [g]).filter (fun y => !y.hasTag p d e) = l := by
  rw [List.filter_append, filter_hasTag_of_ep_ne h, List.filter_singleton, hg]
  exact List.append_nil l

/-- Two changes of an Idle endpoint, as one. -/
theorem State.modify_modify_of_idle (hidle : s.activity e = .idle) {g h k : Endpoint → Endpoint}
    (hk : ∀ p : Endpoint, p.activity = .idle → h (g p) = k p) :
    (s.endpoints.modify e g).modify e h = s.endpoints.modify e k := by
  rw [modify_modify]
  refine modify_congr _ _ _ _ fun p hp => hk p ?_
  rw [← hidle, State.activity, s.getElem?_endpoints hp]

/-- The memory's answer listed next, with data, is given (R351). -/
theorem memGives_response {ms : List MemAnswer} {d : Bytes}
    (h : ms.head? = some (.response d false)) (stored : Bytes) : memGives ms stored d ms.tail :=
  ⟨rfl, .inr (by simp [List.headD_eq_head?_getD, h])⟩

/-! The receive chain. -/

/-- The ring registers depend on the configuration and the endpoint's registers alone. -/
theorem ringRegs_congr {t : State} {g : Field} (hcfg : t.cfg = s.cfg)
    (hreg : ∀ g, t.reg e g = s.reg e g) : ringRegs e g t = ringRegs e g s := by
  simp only [ringRegs, needReg, hcfg, hreg]

/-- RX_FINISH with room: the producer advance, ACK, and Idle (R252). -/
theorem rxFinish_of_room {c : RxCtx} (hc : s.activity f = .receiving c) {r : RingRegs}
    (hr : ringRegs f .bufferWritePtr s = .next r) (hroom : r.occ < r.cap) :
    rxFinish f s = .next { s with
      netInOut := s.netInOut ++ [⟨c.reply, .ack⟩]
      endpoints := s.endpoints.modify f fun p => { p with
        bufferWritePtr := ⟨fitWord s.cfg (nextPointer s.cfg.slotSize r), true⟩
        bufferMessageCount := ⟨fitWord s.cfg (r.occ + 1), true⟩
        activity := .idle } } := by
  unfold rxFinish
  rw [hc]
  dsimp only
  rw [fcAdvanceWrite, hr, andThen_next, if_neg (by simpa [ringFull] using hroom), andThen_next]
  simp only [State.setActivity, State.modifyEp, State.respondNet_endpoints, State.setReg_endpoints,
    modify_modify]
  rfl

/-- RX_ISSUE_WRITE of a Receiving endpoint: the write is issued and stored, and in atomic mode the
memory answers (R250, R351). -/
theorem rxIssueWrite_of_receiving {c : RxCtx} (hc : s.activity f = .receiving c)
    (hr : s.readable f .bufferWritePtr = true) {t : State}
    (ht : t = (s.issueMem ⟨(s.reg f .bufferWritePtr).value, c.length, .write, c.payload,
      .forwardedTag, f⟩).writeMem (s.reg f .bufferWritePtr).value c.payload) :
    rxIssueWrite f s =
      if s.cfg.atomicMode then memAnswered .forwardedTag f [] (rxWriteResponse f) t
      else .next t := by
  unfold rxIssueWrite
  rw [hc]
  dsimp only
  rw [needReg_of_readable hr, andThen_next, ht]
  rfl

/-- Settles O44: the step is RX_ISSUE_WRITE, and the bytes are those of `writeBytes`. -/
theorem rxIssueWriteStep : Obligations.RxIssueWriteStep := by
  rintro s k f rest c hv hm ht hk hc hr hs hlength _ rfl
  refine ⟨writeBytes s.cfg s.mem (s.reg f .bufferWritePtr).value c.payload, ?_,
    writeBytes_wf _ _ _ hs, fun i hi => readByte_writeBytes s.cfg hs hlength hi,
    fun a ha => readByte_writeBytes_of_ne s.cfg hs fun i hi h => ha ⟨i, hi, h⟩⟩
  rw [step_of_run hv ht hk]
  refine (rxIssueWrite_of_receiving (by exact hc) (by exact hr) rfl).trans (if_neg ?_)
  simp [hm]

/-- An accepted message with its write issued and stored (R248, R250). -/
def State.withWrite (s : State) (f : Nat) (c : RxCtx) : State :=
  { s with
    mem := writeBytes s.cfg s.mem (s.reg f .bufferWritePtr).value c.payload
    memOut := s.memOut ++
      [⟨(s.reg f .bufferWritePtr).value, c.length, .write, c.payload, .forwardedTag, f⟩]
    outstanding := s.outstanding ++
      [⟨.mem, .forwardedTag, f, (s.reg f .bufferWritePtr).value, c.length, []⟩]
    endpoints := s.endpoints.modify f fun p => { p with activity := .receiving c } }

theorem State.withWrite_reg (c : RxCtx) (g : Field) : (s.withWrite f c).reg f g = s.reg f g :=
  s.setActivity_reg f f (.receiving c) g

theorem State.withWrite_activity (hl : f < s.endpoints.length) (c : RxCtx) :
    (s.withWrite f c).activity f = .receiving c :=
  (s.setActivity_activity f f _).trans (if_pos ⟨rfl, hl⟩)

/-- An arrival that no check refuses is accepted (R241, R248). -/
theorem rxArrive_eq_rxAccept {addr : Nat} (hf : s.cfg.netEpOf addr = f)
    (hr : f < s.cfg.endpointCount)
    (hread : ∀ g ∈ [Field.mode, .bufferMessageCount, .bufferSize], s.readable f g = true)
    (hmode : (s.reg f .mode).value = 1) (hidle : s.activity f = .idle)
    (hroom : (s.reg f .bufferMessageCount).value < (s.reg f .bufferSize).value)
    {size sc se n : Nat} {data payload : Bytes}
    (hsplit : splitMessage data = some (sc, se, n, payload)) (hn : 0 < n)
    (hsize : n + Config.headerSize = size) (hmax : size ≤ s.cfg.maxMessageSize) (reply : Reply) :
    rxArrive addr size data reply s = rxAccept f ⟨sc, se, n, payload, reply⟩ s := by
  rw [rxArrive_eq hf hr (hread _ (by simp)) hmode hidle, rxMessage_eq hsplit hn hsize hmax,
    needReg_of_readable (hread _ (by simp)), andThen_next, needReg_of_readable (hread _ (by simp)),
    andThen_next, if_neg (by simpa [ringFull] using hroom)]

/-- In atomic mode the memory answers the write of an accepted message (R254, R351). -/
theorem rxAccept_atomic (hm : s.cfg.atomicMode = true) (hl : f < s.endpoints.length)
    (hr : s.readable f .bufferWritePtr = true) (hfresh : ∀ t ∈ s.outstanding, t.ep ≠ f)
    (c : RxCtx) : rxAccept f c s =
      memAnswered .forwardedTag f [] (rxWriteResponse f) (s.withWrite f c) := by
  have hactivity : (s.setActivity f (.receiving c)).activity f = .receiving c :=
    s.withWrite_activity hl c
  have hreadable : (s.setActivity f (.receiving c)).readable f .bufferWritePtr = true := by
    rw [State.readable, State.setActivity_reg]
    exact hr
  refine (sched_atomic (by exact hm) _ _).trans
    ((rxIssueWrite_of_receiving hactivity hreadable ?_).trans (if_pos (by exact hm)))
  rw [State.setActivity_reg, State.withWrite, ← filter_hasTag_of_ep_ne hfresh .mem .forwardedTag]
  rfl

/-- In atomic mode a completed write of an accepted message finishes it (R251, R252, R351). -/
theorem rxWriteResponse_withWrite (hm : s.cfg.atomicMode = true) (hl : f < s.endpoints.length)
    (hidle : s.activity f = .idle) (hfresh : ∀ t ∈ s.outstanding, t.ep ≠ f) {r : RingRegs}
    (hr : ringRegs f .bufferWritePtr s = .next r) (hroom : r.occ < r.cap) (c : RxCtx)
    (ms : List MemAnswer) :
    rxWriteResponse f [] { s.withWrite f c with memAnswers := ms } = .next { s with
      mem := writeBytes s.cfg s.mem (s.reg f .bufferWritePtr).value c.payload
      memAnswers := ms
      memOut := s.memOut ++
        [⟨(s.reg f .bufferWritePtr).value, c.length, .write, c.payload, .forwardedTag, f⟩]
      netInOut := s.netInOut ++ [⟨c.reply, .ack⟩]
      endpoints := s.endpoints.modify f fun p => { p with
        bufferWritePtr := ⟨fitWord s.cfg (nextPointer s.cfg.slotSize r), true⟩
        bufferMessageCount := ⟨fitWord s.cfg (r.occ + 1), true⟩ } } := by
  have hactivity := State.withWrite_activity hl c
  have hring : ringRegs f .bufferWritePtr (s.withWrite f c) = .next r :=
    hr ▸ ringRegs_congr rfl (State.withWrite_reg c)
  rw [rxWriteResponse, if_pos rfl, rxWriteDone_atomic (by exact hm) (by exact hactivity)
      (List.mem_append_right _ (List.mem_singleton_self _)) (by simp [Txn.hasTag])]
  refine (rxFinish_of_room (by exact hactivity) (by exact hring) hroom).trans ?_
  simp only [State.withWrite]
  rw [filter_hasTag_append hfresh (by simp [Txn.hasTag]), State.modify_modify_of_idle hidle]
  rintro p hp
  rw [← hp]

end

/-- Settles O41: the arrival is accepted, and the memory's answer decides how its chain ends. -/
theorem arrivalRunsWholeInAtomicMode : Obligations.ArrivalRunsWholeInAtomicMode := by
  rintro s addr sc se lo hi payload reply n hm hshape hn hlen hpos hmax f hf hr hread hmode hidle
    hroom hfresh _ rfl
  have hlength : (sc :: se :: lo :: hi :: payload).length = 4 + n := by
    simp only [List.length_cons, ← hlen]
    omega
  have hsplit : splitMessage (sc :: se :: lo :: hi :: payload) =
      some (sc.toNat, se.toNat, n, payload) := by
    rw [hn]
    rfl
  have hl : f < s.endpoints.length := hshape ▸ hr
  have hringRegs := ringRegs_of_readable (hread .bufferAddr (by simp))
    (hread .bufferSize (by simp)) (hread .bufferMessageCount (by simp))
    (hread .bufferWritePtr (by simp))
  have hexec : exec (.evRxMsg addr (4 + n) (sc :: se :: lo :: hi :: payload) reply) s =
      memAnswered .forwardedTag f [] (rxWriteResponse f)
        (s.withWrite f ⟨sc.toNat, se.toNat, n, payload, reply⟩) :=
    (if_pos hlength).trans ((rxArrive_eq_rxAccept hf.symm hr
      (fun g hg => hread g (by revert hg; cases g <;> decide)) hmode hidle hroom hsplit hpos
      (Nat.add_comm ..) hmax reply).trans
        (rxAccept_atomic hm hl (hread _ (by simp)) hfresh _))
  rw [hexec]
  refine ⟨fun ms hms => ?_, fun hsilent => ?_, fun d failed hresponse hbad => ?_⟩
  · rw [memAnswered_of_gives (by exact hms),
      rxWriteResponse_withWrite hm hl hidle hfresh hringRegs hroom]
    rfl
  · exact memAnswered_silent (by exact hsilent) _
  · cases failed with
    | true => exact memAnswered_failed (by exact hresponse) _
    | false =>
      rw [memAnswered_of_gives (by exact memGives_response hresponse _)]
      exact if_neg (hbad.resolve_left (by simp))

section
variable {s : State} {e : Nat}

/-! The transmit chain. -/

/-- An accepted START with its read issued (R201, R202). -/
def State.withRead (s : State) (e : Nat) (x : TxCtx) : State :=
  { s with
    status := 1
    endpoints := s.endpoints.modify e fun p => { p with activity := .transmitting x }
    memOut := s.memOut ++ [⟨x.msgAddr, x.length, .read, [], .localTag, e⟩]
    outstanding := s.outstanding ++ [⟨.mem, .localTag, e, x.msgAddr, x.length, []⟩] }

theorem State.withRead_activity (hl : e < s.endpoints.length) (x : TxCtx) :
    (s.withRead e x).activity e = .transmitting x :=
  (s.setActivity_activity e e _).trans (if_pos ⟨rfl, hl⟩)

/-- In atomic mode the memory answers the read of an accepted START (R200, R202, R351). -/
theorem txAccept_atomic (hm : s.cfg.atomicMode = true) (hv : s.cfg.valid = true)
    (hl : e < s.endpoints.length) (hfresh : ∀ t ∈ s.outstanding, t.ep ≠ e) {x : TxCtx}
    (hx : capture e s = .next x) : txAccept e s =
      memAnswered .localTag e (readBytes s.cfg s.mem x.msgAddr x.length) (txReadDone e)
        (s.withRead e x) := by
  have hactivity : ((s.setStatus statusBusy).setActivity e (.transmitting x)).activity e =
      .transmitting x := State.withRead_activity hl x
  have hissued : ((s.setStatus statusBusy).setActivity e (.transmitting x)).issueMem
      ⟨x.msgAddr, x.length, .read, [], .localTag, e⟩ = s.withRead e x := by
    rw [State.withRead, ← filter_hasTag_of_ep_ne hfresh .mem .localTag,
      ← Config.one_mod_two_pow_regWidth hv]
    rfl
  rw [txAccept, hx, andThen_next, sched_atomic (by exact hm), txIssueRead, hactivity]
  dsimp only
  rw [hissued]
  exact if_pos hm

/-- The answer to a Transmitting endpoint's message: TX_FINAL follows (R206, R207). -/
theorem txResponded_of_transmitting {x : TxCtx} {g : Txn} (hg : g ∈ s.outstanding)
    (htag : g.hasTag .net .localTag e = true) (hx : s.activity e = .transmitting x)
    (st : NetStatus) : txResponded e st s =
      sched (.txFinal e st) (fun u => .next (txFinal e st u))
        { s with outstanding := s.outstanding.filter fun y => !y.hasTag .net .localTag e } := by
  rw [txResponded, takeTag_of_mem hg htag, andThen_next]
  split
  · rfl
  · next h => exact absurd hx (h x)

/-- TX_SEND of a Transmitting endpoint issues the message, and the network does its part (R204). -/
theorem txSend_of_transmitting {x : TxCtx} (hx : s.activity e = .transmitting x) (msg : Bytes) :
    txSend e msg s =
      netAnswer e (sendReq s.cfg e x msg) (s.issueNet (sendReq s.cfg e x msg)) := by
  rw [txSend, hx]

/-- In atomic mode the network's part of a message to another core is the next answer (R351). -/
theorem netAnswer_of_answer {r : NetReq} (hm : s.cfg.atomicMode = true)
    (hcore : s.cfg.netCoreOf r.addr ≠ s.cfg.coreId) {st : NetStatus} {rest : List NetStatus}
    (h : s.netAnswers = st :: rest) :
    netAnswer e r s = txResponded e st { s with netAnswers := rest } := by
  rw [netAnswer, if_pos hm, if_neg hcore, h]

/-- With no answer of the network the message stays in flight (R209). -/
theorem netAnswer_of_no_answer {r : NetReq} (hm : s.cfg.atomicMode = true)
    (hcore : s.cfg.netCoreOf r.addr ≠ s.cfg.coreId) (h : s.netAnswers = []) :
    netAnswer e r s = .next s := by
  rw [netAnswer, if_pos hm, if_neg hcore, h]

/-- An accepted START with its message issued, the read done (R203, R204). -/
def State.withMessage (s : State) (e : Nat) (x : TxCtx) (d : Bytes) (ms : List MemAnswer) : State :=
  { s with
    status := 1
    endpoints := s.endpoints.modify e fun p => { p with activity := .transmitting x }
    memOut := s.memOut ++ [⟨x.msgAddr, x.length, .read, [], .localTag, e⟩]
    netOut := s.netOut ++ [sendReq s.cfg e x (messageOf s.cfg e x.length d)]
    memAnswers := ms
    outstanding := s.outstanding ++ [⟨.net, .localTag, e,
      s.cfg.encodeNetworkAddress x.targetCore x.targetEp, Config.headerSize + x.length, []⟩] }

/-- In atomic mode the memory's data is sent, or faults by its length (R203, R204, R351). -/
theorem txReadDone_withRead (hm : s.cfg.atomicMode = true) (hl : e < s.endpoints.length)
    (hfresh : ∀ t ∈ s.outstanding, t.ep ≠ e) (x : TxCtx) (d : Bytes) (ms : List MemAnswer) :
    txReadDone e d { s.withRead e x with memAnswers := ms } =
      if d.length = x.length then
        netAnswer e (sendReq s.cfg e x (messageOf s.cfg e x.length d)) (s.withMessage e x d ms)
      else .fault (.responseLength e) := by
  have hactivity := State.withRead_activity hl x
  have hissued : ({ s.withRead e x with memAnswers := ms, outstanding := s.outstanding } :
      State).issueNet (sendReq s.cfg e x (messageOf s.cfg e x.length d)) =
        s.withMessage e x d ms := by
    simp only [State.issueNet, State.addTag, State.withMessage, State.withRead, sendReq]
    rw [filter_hasTag_of_ep_ne hfresh]
  rw [txReadDone_of_transmitting (List.mem_append_right _ (List.mem_singleton_self _))
    (by simp [Txn.hasTag]) (by exact hactivity)]
  refine if_congr Iff.rfl ?_ rfl
  rw [sched_atomic (by exact hm), txSend_of_transmitting (by exact hactivity), ← hissued]
  simp only [State.withRead]
  rw [filter_hasTag_append hfresh (by simp [Txn.hasTag])]

/-- The report of TX_FINAL: one on a rejection (R207). -/
def finalReports (e : Nat) : NetStatus → List Report
  | .ack => []
  | .reject k => [⟨.tx, .remoteRejected, e, k.number⟩]

/-- TX_FINAL clears COMMAND and STATUS, reports a rejection, and leaves Idle (R206, R207). -/
theorem txFinal_eq (e : Nat) (st : NetStatus) (s : State) : txFinal e st s = { s with
    command := 0
    status := 0
    endpoints := s.endpoints.modify e fun p => { p with activity := .idle }
    reports := s.reports ++ finalReports e st } := by
  have hzero : fitWord s.cfg 0 = 0 := Nat.zero_mod _
  cases st with
  | ack =>
    simp only [finalReports, List.append_nil]
    rw [← hzero]
    rfl
  | reject k =>
    rw [← hzero]
    rfl

/-- In atomic mode the network's answer finalises the operation (R206, R207, R351). -/
theorem txResponded_withMessage (hm : s.cfg.atomicMode = true) (hl : e < s.endpoints.length)
    (hidle : s.activity e = .idle) (hfresh : ∀ t ∈ s.outstanding, t.ep ≠ e) (x : TxCtx) (d : Bytes)
    (ms : List MemAnswer) (st : NetStatus) (rest : List NetStatus) :
    txResponded e st { s.withMessage e x d ms with netAnswers := rest } = .next { s with
      command := 0
      status := 0
      memOut := s.memOut ++ [⟨x.msgAddr, x.length, .read, [], .localTag, e⟩]
      netOut := s.netOut ++ [sendReq s.cfg e x (messageOf s.cfg e x.length d)]
      memAnswers := ms
      netAnswers := rest
      reports := s.reports ++ finalReports e st } := by
  have hactivity : (s.withMessage e x d ms).activity e = .transmitting x :=
    State.withRead_activity hl x
  rw [txResponded_of_transmitting (List.mem_append_right _ (List.mem_singleton_self _))
    (by simp [Txn.hasTag]) (by exact hactivity), sched_atomic (by exact hm), txFinal_eq]
  simp only [State.withMessage]
  rw [filter_hasTag_append hfresh (by simp [Txn.hasTag]),
    State.modify_modify_of_idle hidle (k := id), List.modify_id]
  rintro p hp
  rw [← hp]
  rfl

end

/-- Settles O24: the START is accepted, the memory's answer decides whether its message is sent, and
the network's whether it is finalised. -/
theorem startRunsWholeInAtomicMode : Obligations.StartRunsWholeInAtomicMode := by
  rintro s e off hm hv he hshape hread hmode hidle hpos hmax hfresh addr len naddr ctx rfl rfl rfl
    rfl
  have hl : e < s.endpoints.length := hshape ▸ he
  have hexec := (exec_startOperation_of_lt he off).trans
    ((startOn_eq_txAccept (hread _ (by simp)) hmode hidle (hread _ (by simp)) hpos hmax).trans
      (txAccept_atomic hm hv hl hfresh (capture_of_readable (hread _ (by simp))
        (hread _ (by simp)) (hread _ (by simp)) (hread _ (by simp)))))
  rw [hexec]
  refine ⟨fun hsilent => memAnswered_silent (by exact hsilent) _,
    fun d hfailed => memAnswered_failed (by exact hfailed) _, fun d hresponse hlength => ?_,
    fun d ms hms hlength hcore => ?_⟩
  · rw [memAnswered_of_gives (by exact memGives_response hresponse _),
      txReadDone_withRead hm hl hfresh, if_neg hlength]
  · rw [memAnswered_of_gives (by exact hms), txReadDone_withRead hm hl hfresh, if_pos hlength]
    refine ⟨fun st rest hanswer => ?_, fun hnone => ?_⟩
    · rw [netAnswer_of_answer (by exact hm) (by exact hcore) (by exact hanswer),
        txResponded_withMessage hm hl hidle hfresh]
      cases st <;> rfl
    · exact netAnswer_of_no_answer (by exact hm) (by exact hcore) (by exact hnone)

end Sys2Proof.Machine

namespace Sys2Proof

/-! ### The codec of command words and of addresses (R101, R102, R110, R111) -/

/-- Encode answers the packed fields when each fits its width (R102). -/
theorem encodeCommand_of_fits {c : Config} {op ep off : Nat} (hop : op < 2 ^ c.opcodeWidth)
    (hep : ep < 2 ^ c.epWidth) (hoff : off < 2 ^ c.offsetWidth) :
    encodeCommand c op ep off =
      some (op ||| (ep <<< c.opcodeWidth) ||| (off <<< (c.opcodeWidth + c.epWidth))) :=
  if_pos (by simp [Config.commandFits, hop, hep, hoff])

/-- The three fields of an encoded command word, one by one (R101). -/
theorem fieldsOf_encodeCommand {c : Config} {op ep off w : Nat}
    (h : encodeCommand c op ep off = some w) :
    c.opcodeOf w = op ∧ c.epOf w = ep ∧ c.offsetOf w = off := by
  obtain ⟨hop, hep, hoff, rfl⟩ := encodeCommand_eq_some h
  refine ⟨bitField_low hop, (bitField_above hop 0 _).trans (bitField_low hep),
    (bitField_above hop _ _).trans ((bitField_above hep 0 _).trans ?_)⟩
  exact bitField_low (y := 0) hoff

/-- Settles O1: fields that fit are packed and read back; where one does not fit, no word encodes
them, since the fields of an encoded word fit. -/
theorem commandWordCodec : Obligations.CommandWordCodec := by
  intro c op ep off hv
  constructor
  · intro hop hep hoff
    have hw := encodeCommand_of_fits hop hep hoff
    exact ⟨_, hw, rfl, encodeCommand_lt hv hw, fieldsOf_encodeCommand hw⟩
  · intro hout
    refine Option.eq_none_iff_forall_ne_some.2 fun w hw => ?_
    obtain ⟨hop, hep, hoff, -⟩ := encodeCommand_eq_some hw
    omega

/-- An operation that an opcode selects is well formed when its fields fit (R102, R103). -/
theorem wellFormed_commandOf (c : Config) (op ep off : Nat) :
    (commandOf op ep off).wellFormed c = c.commandFits op ep off := by
  match op with
  | 0 | 1 | 2 => rfl
  | n + 3 => simp [commandOf, Instr.wellFormed]

/-- The stimulus of an operation that an opcode selects is its command word (R102, R103). -/
theorem stimulusOf_commandOf (c : Config) (op ep off : Nat) :
    stimulusOf c (commandOf op ep off) = (encodeCommand c op ep off).map .word := by
  match op with
  | 0 | 1 | 2 | _ + 3 => rfl

/-- The fields of a word fit their widths (R101). -/
theorem fieldsOf_lt (c : Config) (w : Nat) : c.opcodeOf w < 2 ^ c.opcodeWidth ∧
    c.epOf w < 2 ^ c.epWidth ∧ c.offsetOf w < 2 ^ c.offsetWidth :=
  ⟨bitField_lt .., bitField_lt .., bitField_lt ..⟩

/-- The fields of a word, packed again, are its low bits (R101, R102). -/
theorem encodeCommand_fieldsOf (c : Config) (w : Nat) :
    encodeCommand c (c.opcodeOf w) (c.epOf w) (c.offsetOf w) =
      some (w % 2 ^ (c.opcodeWidth + c.epWidth + c.offsetWidth)) := by
  obtain ⟨hop, hep, hoff⟩ := fieldsOf_lt c w
  rw [encodeCommand_of_fits hop hep hoff, packed_eq_sum hop hep, Nat.pow_add, Nat.pow_add,
    Nat.mul_assoc, Nat.mod_mul, Nat.mod_mul]
  simp [Config.opcodeOf, Config.epOf, Config.offsetOf, bitField, Nat.pow_add,
    Nat.div_div_eq_div_mul]

/-- Settles O3: a word's operation is well formed because its fields are cut to their widths, and
packing these fields again gives the word's low bits. -/
theorem encodeDecodeWord : Obligations.EncodeDecodeWord := by
  intro c w _ hw
  have hfit : (decodeCommand c w).wellFormed c = true :=
    (wellFormed_commandOf ..).trans (by simp [Config.commandFits, fieldsOf_lt c w])
  refine ⟨decodeCommand c w, if_pos hw, hfit, ?_⟩
  rw [encode, if_pos hfit, decodeCommand, stimulusOf_commandOf, encodeCommand_fieldsOf]
  rfl

/-- Settles O4: each example is decoded by evaluation. -/
theorem exampleWordsDecode : Obligations.ExampleWordsDecode := by
  unfold Obligations.ExampleWordsDecode
  decide

/-- A network address in range is a sum: its core above its endpoint (R110, R365). -/
theorem Config.encodeNetworkAddress_eq_sum {c : Config} {core ep : Nat}
    (hn : c.netEpBits ≤ c.regWidth) (hep : ep < 2 ^ c.netEpBits)
    (hcore : core < 2 ^ (c.regWidth - c.netEpBits)) :
    c.encodeNetworkAddress core ep = core * 2 ^ c.netEpBits + ep := by
  have hlt : core * 2 ^ c.netEpBits + ep < 2 ^ c.regWidth := by
    rw [← Nat.sub_add_cancel hn, Nat.pow_add]
    nlinarith
  rw [encodeNetworkAddress, ← Nat.shiftLeft_add_eq_or_of_lt hep, Nat.shiftLeft_eq,
    Nat.mod_eq_of_lt hlt]

/-- The endpoint of a network address in range (R111). -/
theorem Config.netEpOf_sum (c : Config) {core ep : Nat} (hep : ep < 2 ^ c.netEpBits) :
    c.netEpOf (core * 2 ^ c.netEpBits + ep) = ep := by
  simp [netEpOf, bitField, Nat.mod_eq_of_lt hep]

/-- The core of a network address in range (R111). -/
theorem Config.netCoreOf_sum (c : Config) {core ep : Nat} (hep : ep < 2 ^ c.netEpBits) :
    c.netCoreOf (core * 2 ^ c.netEpBits + ep) = core := by
  rw [netCoreOf, Nat.shiftRight_eq_div_pow, Nat.mul_comm,
    Nat.mul_add_div (Nat.two_pow_pos _), Nat.div_eq_of_lt hep, Nat.add_zero]

/-- Settles O5: an address in range is core and endpoint side by side, nothing cut off. -/
theorem networkAddressRoundTrip : Obligations.NetworkAddressRoundTrip := by
  intro c core ep hv hep hcore
  obtain ⟨-, -, -, -, -, -, -, -, -, hn⟩ := (Config.valid_iff c).1 hv
  rw [Config.encodeNetworkAddress_eq_sum hn.le hep hcore]
  exact ⟨rfl, c.netEpOf_sum hep, c.netCoreOf_sum hep⟩

end Sys2Proof

namespace Sys2Proof.Machine

/-! ### Messages -/

/-- A message is its 4 header bytes and its payload (R12, R205). -/
theorem length_messageOf (c : Config) (e len : Nat) (payload : Bytes) :
    (messageOf c e len payload).length = 4 + payload.length := by
  simp only [messageOf, header, le16, List.length_append, List.length_cons, List.length_nil]

/-- Settles O6: `splitMessage_messageOf`, where core and endpoint id fit their byte. -/
theorem messageRoundTrip : Obligations.MessageRoundTrip := by
  intro c e len payload hcore he hlen
  refine ⟨?_, length_messageOf c e len payload⟩
  rw [splitMessage_messageOf c e hlen, Nat.mod_eq_of_lt (Nat.lt_succ_of_le hcore),
    Nat.mod_eq_of_lt he]

/-! ### The range check (R151) -/

/-- The range check reports an endpoint id out of range and runs nothing (R105, R151). -/
theorem inRange_of_le {e : Nat} {s : State} (h : s.cfg.endpointCount ≤ e) (k : Ans State) :
    inRange e s k = .next (s.raise .exec .epOutOfRange e 0) := if_pos h

/-- Whatever operation an opcode selects, the range check comes first (R151). -/
theorem exec_commandOf_of_le {e : Nat} {s : State} (h : s.cfg.endpointCount ≤ e) (op off : Nat) :
    exec (commandOf op e off) s = .next (s.raise .exec .epOutOfRange e 0) := by
  match op with
  | 0 | 1 | 2 | _ + 3 => exact inRange_of_le h _

/-- Settles O18: the endpoint id is checked before the opcode's own rule. -/
theorem outOfRangeReported : Obligations.OutOfRangeReported := fun _ _ h =>
  exec_commandOf_of_le h _ _

/-! ### The layer of units (R110, R317, R346) -/

section

variable {y : System} {k : Nat} {s t : State}

/-- The units of a valid system are valid (R10). -/
theorem System.valid_cfg (h : y.valid = true) (hs : s ∈ y.units) : s.cfg.valid = true := by
  simp only [System.valid, Bool.and_eq_true, List.all_eq_true] at h
  obtain ⟨⟨⟨hcfg, -⟩, -⟩, -⟩ := h
  exact hcfg s hs

/-- The units of a valid system have distinct core ids and one NET_EP_BITS (R317; log 27). -/
theorem System.valid_layout (h : y.valid = true) :
    (y.units.map fun u => u.cfg.coreId).Nodup ∧
      ∀ u ∈ y.units, ∀ v ∈ y.units, u.cfg.netEpBits = v.cfg.netEpBits := by
  simp only [System.valid, Bool.and_eq_true, List.all_eq_true, decide_eq_true_eq] at h
  obtain ⟨⟨⟨-, hnodup⟩, hlayout⟩, -⟩ := h
  exact ⟨hnodup, fun u hu v hv => (hlayout u hu v hv).1⟩

/-- An address whose core is that of unit `k` names unit `k`: every unit reads the same core from
it, and no other unit has that core id (R111, R317). -/
theorem unitOf_of_netCoreOf (hv : y.valid = true) (hk : y.units[k]? = some s) {addr : Nat}
    (ha : s.cfg.netCoreOf addr = s.cfg.coreId) : unitOf y addr = some k := by
  obtain ⟨hnodup, hbits⟩ := System.valid_layout hv
  obtain ⟨hlt, rfl⟩ := List.getElem?_eq_some_iff.1 hk
  have hcore : ∀ u ∈ y.units, u.cfg.netCoreOf addr = y.units[k].cfg.coreId := fun u hu => by
    rw [← ha, Config.netCoreOf, Config.netCoreOf, hbits u hu _ (List.getElem_mem hlt)]
  refine List.findIdx?_eq_some_iff_getElem.2 ⟨hlt, by simpa using ha.symm, fun j hj => ?_⟩
  have hjlt : j < y.units.length := hj.trans hlt
  rw [decide_eq_true_eq, hcore _ (List.getElem_mem hjlt)]
  intro heq
  exact hj.ne ((hnodup.getElem_inj_iff (hi := by simpa) (hj := by simpa)).1 (by simpa using heq))

/-- A step of a unit that exists is its own step, collected by the network. -/
theorem stepUnit_of_getElem? (hk : y.units[k]? = some s) (ready : State → State) :
    stepUnit k ready y = andThen (step (ready s)) fun t => .next (collect k s t y) := by
  rw [stepUnit, hk]

/-- A delivery is the arrival at the addressed unit, which then owes an answer (R317). -/
theorem deliver_eq {j : Nat} {x : Flight} (hj : y.flights[j]? = some x)
    (hm : unitOf y x.req.addr = some k) (hk : y.units[k]? = some s) :
    deliver j y =
      andThen (step (putEvent
        (.netIn ⟨x.req.addr, x.req.size, .write, x.req.data, .network x.number⟩) s)) fun t =>
      .next (collect k s t { y with
        flights := y.flights.eraseIdx j
        waiting := y.waiting ++ [⟨k, x.number, x.origin, x.req.ep⟩] }) := by
  simp only [deliver, hj, hm]
  exact stepUnit_of_getElem? (by exact hk) _

/-- An answer is the network's response to its originator (D44). -/
theorem answer_eq {j : Nat} {x : Answer} (hj : y.answers[j]? = some x)
    (hk : y.units[x.origin]? = some s) :
    answer j y =
      andThen (step (putEvent (.netResp ⟨.localTag, x.ep, x.status⟩) s)) fun t =>
      .next (collect x.origin s t { y with answers := y.answers.eraseIdx j }) := by
  simp only [answer, hj]
  exact stepUnit_of_getElem? (by exact hk) _

/-- A request a step issues is taken over when it is in flight and not delivered within the step
(R210, R351). -/
theorem collect_request {r : NetReq} (hi : t.netInOut = s.netInOut)
    (ho : t.netOut = s.netOut ++ [r]) :
    collect k s t y =
      if (∃ g ∈ t.outstanding, g.hasTag .net r.disc r.ep = true) ∧
          ¬(t.cfg.atomicMode = true ∧ t.cfg.netCoreOf r.addr = t.cfg.coreId)
      then takeRequest k { y with units := y.units.set k t } r
      else { y with units := y.units.set k t } := by
  have hcarried : (t.outstanding.any (fun g => g.hasTag .net r.disc r.ep) &&
      !deliveredWithin t r) = true ↔
      (∃ g ∈ t.outstanding, g.hasTag .net r.disc r.ep = true) ∧
        ¬(t.cfg.atomicMode = true ∧ t.cfg.netCoreOf r.addr = t.cfg.coreId) := by
    rw [Bool.and_eq_true, List.any_eq_true, Bool.not_eq_true', ← Bool.not_eq_true, deliveredWithin,
      Bool.and_eq_true, decide_eq_true_eq]
  simp only [collect, newRequests, hi, ho, List.drop_left, List.drop_length, List.foldl_nil,
    List.filter_cons, List.filter_nil, ← hcarried]
  split <;> rfl

/-- A response a step gives is turned into an answer (D44). -/
theorem collect_response {r : NetInResp} (ho : t.netOut = s.netOut)
    (hi : t.netInOut = s.netInOut ++ [r]) :
    collect k s t y = takeResponse k t { y with units := y.units.set k t } r := by
  simp [collect, newRequests, hi, ho]

/-- A response to a delivery goes to the originator that waits for it (D44). -/
theorem takeResponse_network {n : Nat} {w : Waiting} (hw : w ∈ y.waiting) (hr : w.receiver = k)
    (hn : w.number = n) (hone : ∀ z ∈ y.waiting, z.receiver = k → z.number = n → z = w)
    (st : NetStatus) :
    takeResponse k t y ⟨.network n, st⟩ = { y with
      waiting := y.waiting.filter fun z => !decide (z.receiver = k ∧ z.number = n)
      answers := y.answers ++ [⟨w.origin, w.ep, st⟩] } := by
  have hfind : y.waiting.find? (fun z => decide (z.receiver = k ∧ z.number = n)) = some w := by
    obtain ⟨v, hv⟩ := Option.isSome_iff_exists.1
      (List.find?_isSome (p := fun z : Waiting => decide (z.receiver = k ∧ z.number = n)).2
        ⟨w, hw, by simp [hr, hn]⟩)
    obtain ⟨hvr, hvn⟩ := by simpa using List.find?_some hv
    rw [hv, hone v (List.mem_of_find?_eq_some hv) hvr hvn]
  simp only [takeResponse, hfind]

/-- A unit's response to its own message is an answer only while the message is in flight (R351;
log 26). -/
theorem takeResponse_own (e : Nat) (st : NetStatus) :
    takeResponse k t y ⟨.own e, st⟩ =
      if ∃ g ∈ t.outstanding, g.hasTag .net .localTag e = true
      then { y with answers := y.answers ++ [⟨k, e, st⟩] } else y := by
  simp only [takeResponse, List.any_eq_true]

/-! ### The turn of an atomic unit (R254, R351) -/

section

variable {j m : Nat} {p q : State} {x : Flight} {st : NetStatus}
  (hj : y.flights[j]? = some x) (hm : unitOf y x.req.addr = some m) (hp : y.units[m]? = some p)
  (hq : step (putEvent
    (.netIn ⟨x.req.addr, x.req.size, .write, x.req.data, .network x.number⟩) p) = .next q)
  (hqo : q.netOut = p.netOut) (hqi : q.netInOut = p.netInOut ++ [⟨.network x.number, st⟩])
  (hfresh : ∀ w ∈ y.waiting, w.number ≠ x.number)
include hj hm hp hq hqo hqi hfresh

/-- The peer answers a delivery within its step: the answer for the originator is on its way, and
nothing waits for this delivery any more. -/
theorem deliver_answered :
    deliver j y = .next { y with
      units := y.units.set m q
      flights := y.flights.eraseIdx j
      answers := y.answers ++ [⟨x.origin, x.req.ep, st⟩] } := by
  have hwaiting : (y.waiting ++ [(⟨m, x.number, x.origin, x.req.ep⟩ : Waiting)]).filter
      (fun z => !decide (z.receiver = m ∧ z.number = x.number)) = y.waiting := by
    rw [List.filter_append, List.filter_eq_self.2 fun w hw => by simp [hfresh w hw]]
    simp
  rw [deliver_eq hj hm hp, hq, andThen_next, collect_response hqo hqi,
    takeResponse_network (w := ⟨m, x.number, x.origin, x.req.ep⟩) (by simp) rfl rfl]
  · simp only [hwaiting]
  · rintro z hz - hzn
    rcases List.mem_append.1 hz with hold | hnew
    · exact absurd hzn (hfresh z hold)
    · exact List.mem_singleton.1 hnew

/-- The peer answers within the delivery, and the originator takes the answer (R254, R351). -/
theorem settle_answered {u : State} (hne : m ≠ x.origin) (ht : y.units[x.origin]? = some t)
    (hu : step (putEvent (.netResp ⟨.localTag, x.req.ep, st⟩) t) = .next u)
    (huo : u.netOut = t.netOut) (hui : u.netInOut = t.netInOut) :
    settle j y = .next { y with
      units := (y.units.set m q).set x.origin u
      flights := y.flights.eraseIdx j } := by
  have hlast : (y.answers ++ [(⟨x.origin, x.req.ep, st⟩ : Answer)])[y.answers.length]? =
      some ⟨x.origin, x.req.ep, st⟩ := by simp
  have hgone : (y.answers ++ [(⟨x.origin, x.req.ep, st⟩ : Answer)]).eraseIdx y.answers.length =
      y.answers := by simp [List.eraseIdx_append_of_length_le]
  simp only [settle, hj, hm, deliver_answered hj hm hp hq hqo hqi hfresh, andThen_next]
  rw [if_neg (by simp), andThen_next,
    answer_eq (by exact hlast) (by exact (List.getElem?_set_ne hne).trans ht), hu, andThen_next,
    collect_quiet hui huo]
  simp only [hgone]

end

/-- An atomic unit's step that issues one request for another core: the request is on its way, and
the rest of the turn is the network's part. -/
theorem systemStep_of_request {r : NetReq} (hk : y.units[k]? = some s)
    (hm : s.cfg.atomicMode = true) (hstep : step s = .next t) (hi : t.netInOut = s.netInOut)
    (ho : t.netOut = s.netOut ++ [r])
    (hflight : ∃ g ∈ t.outstanding, g.hasTag .net r.disc r.ep = true)
    (hcore : s.cfg.netCoreOf r.addr ≠ s.cfg.coreId) :
    systemStep (.unit k) y =
      settle y.flights.length (takeRequest k { y with units := y.units.set k t } r) := by
  have hother : ¬(t.cfg.atomicMode = true ∧ t.cfg.netCoreOf r.addr = t.cfg.coreId) := by
    rw [step_cfg_eq hstep]
    rintro ⟨-, hown⟩
    exact hcore hown
  have hatomic : isAtomic k y = true := by simp [isAtomic, hk, hm]
  rw [systemStep, stepUnit_of_getElem? hk, id_eq, hstep, andThen_next, andThen_next,
    if_pos hatomic, collect_request hi ho, if_pos ⟨hflight, hother⟩]

/-- A step of a unit changes no configuration, so the network finds the same units (R110). -/
theorem unitOf_set_step {z : System} (hk : y.units[k]? = some s) (hstep : step s = .next t)
    (hz : z.units = y.units.set k t) (addr : Nat) : unitOf z addr = unitOf y addr := by
  refine unitOf_congr ?_
  rw [hz, List.map_set, step_cfg_eq hstep]
  refine List.ext_getElem? fun i => ?_
  rw [List.getElem?_set]
  split
  · next h =>
    obtain ⟨hlt, rfl⟩ := List.getElem?_eq_some_iff.1 hk
    simp [← h, hlt]
  · rfl

/-- A request for an absent core stays on its way (R209, U8). -/
theorem settle_absent {j : Nat} {x : Flight} (hj : y.flights[j]? = some x)
    (hm : unitOf y x.req.addr = none) : settle j y = .next y := by
  simp only [settle, hj, hm]

end

/-- Settles O60: unit `k` is found by its core id, a step's request and response are collected one
by one, and an atomic unit's turn is its step, the delivery, and the answer's return. -/
theorem networkFindsUnit : Obligations.NetworkFindsUnit := by
  intro y k s hk
  refine ⟨fun core ep hv hid hcore hep => ?_, fun j x hj hx => ?_, fun t r hi ho => ?_,
    fun t st ho => ⟨fun n w hi hw hr hn hone => ?_, fun e hi => ?_⟩,
    fun t r hm hstep _ hi ho hflight hcore hwait => ?_⟩
  · have hcfg := System.valid_cfg hv (List.mem_of_getElem? hk)
    obtain ⟨-, -, hown⟩ := networkAddressRoundTrip s.cfg core ep hcfg hep hcore
    have hunit := unitOf_of_netCoreOf hv hk (hown.trans hid.symm)
    exact ⟨hunit, fun j x hj hx => deliver_eq hj (hx ▸ hunit) hk⟩
  · subst hx
    exact answer_eq hj hk
  · exact collect_request hi ho
  · rw [collect_response ho hi, takeResponse_network (by exact hw) hr hn (by exact hone)]
  · rw [collect_response ho hi, takeResponse_own]
  · have hissued : (takeRequest k { y with units := y.units.set k t } r).flights[
        y.flights.length]? = some ⟨k, y.nextNumber, r⟩ := by simp [takeRequest]
    have hunit := unitOf_set_step (z := takeRequest k { y with units := y.units.set k t } r) hk
      hstep rfl r.addr
    rw [systemStep_of_request hk hm hstep hi ho hflight hcore]
    refine ⟨fun m p q st u hpeer hp hmk hq hqo hqi hu huo hui => ?_, fun habsent => ?_⟩
    · have hlt := (List.getElem?_eq_some_iff.1 hk).1
      rw [settle_answered hissued (hunit.trans hpeer)
        (by exact (List.getElem?_set_ne hmk.symm).trans hp) hq hqo hqi
        (fun w hw => (hwait w hw).ne) hmk (by exact List.getElem?_set_self hlt) hu huo hui]
      simp [takeRequest, List.eraseIdx_append_of_length_le, List.set_comm _ _ hmk]
    · exact settle_absent hissued (hunit.trans habsent)

end Sys2Proof.Machine

namespace Sys2Proof.Machine

/-! ### IDLE and the invalid opcodes (R152, R160) -/

/-- An endpoint id in range passes the range check (R151). -/
theorem inRange_of_lt {e : Nat} {s : State} (h : e < s.cfg.endpointCount) (k : Ans State) :
    inRange e s k = k := if_neg (not_le.2 h)

/-- The idle word is IDLE of endpoint 0 (R103, R152). -/
theorem decodeCommand_idleCommand (c : Config) :
    decodeCommand c Config.idleCommand = .idle 0 0 := by
  simp [decodeCommand, Config.opcodeOf, Config.epOf, Config.offsetOf, bitField, commandOf,
    Config.idleCommand]

/-- Settles O19: past the range check IDLE is a no-op, and a valid configuration has endpoint 0. -/
theorem idleIsNoOp : Obligations.IdleIsNoOp := by
  refine fun s e off => ⟨fun h => inRange_of_lt h _, fun h => inRange_of_le h _, fun hv => ?_⟩
  obtain ⟨-, hcount, -⟩ := (Config.valid_iff s.cfg).1 hv
  exact ⟨decodeCommand_idleCommand s.cfg, inRange_of_lt hcount _⟩

/-- Settles O20: the report follows the range check, whatever the opcode value. -/
theorem invalidOpcodeReported : Obligations.InvalidOpcodeReported := fun _ _ _ _ _ =>
  ⟨fun h => inRange_of_lt h _, fun h => inRange_of_le h _⟩

/-! ### START_OPERATION (R153 to R156, R200, R201) -/

/-- The size limit is violated by length 0 and by a message longer than the maximum (R156). -/
theorem sizeViolates_iff {c : Config} {len : Nat} :
    sizeViolates c len = true ↔ len = 0 ∨ c.maxMessageSize < len + 4 := by
  rw [sizeViolates, Bool.or_eq_true, decide_eq_true_eq, decide_eq_true_eq]
  exact Iff.rfl

/-- The checks of START in their order, once MODE is read (R153 to R155). -/
theorem startOn_of_readable {s : State} {e : Nat} (hread : s.readable e .mode = true) :
    startOn e s =
      if (s.reg e .mode).value = 1 then .next (s.raise .exec .startOnReceive e 0)
      else if (s.reg e .mode).value ≠ 0 then .next (s.raise .exec .invalidMode e 0)
      else if s.activity e ≠ .idle then .next (s.raise .exec .epBusy e 0)
      else andThen (needReg e .messageSize s) fun len =>
        if sizeViolates s.cfg len then .next (s.raise .exec .sizeLimit e 0) else txAccept e s := by
  simp only [startOn, needReg_of_readable hread, andThen_next, modeReceive, modeTransmit,
    State.isIdle, Bool.not_eq_true', decide_eq_false_iff_not, ne_eq]

/-- Settles O22: the checks of START, one by one in their order. -/
theorem startRejections : Obligations.StartRejections := by
  intro s e off he hread hsize k hk
  rw [exec_startOperation_of_lt he, startOn_of_readable hread]
  split_ifs at hk ⊢ with hreceive hinvalid hbusy hlen <;> obtain rfl := Option.some.inj hk
  · rfl
  · rfl
  · rfl
  · rw [needReg_of_readable (hsize (not_not.1 hinvalid) (not_not.1 hbusy)), andThen_next,
      if_pos (sizeViolates_iff.2 hlen)]
    rfl

/-- An accepted START in timed mode: busy, Transmitting with its context, and TX_ISSUE_READ pending
(R200). -/
def State.startAccepted (s : State) (e : Nat) (x : TxCtx) : State :=
  { (s.setStatus statusBusy).setActivity e (.transmitting x) with
    pending := s.pending ++ [.txIssueRead e] }

/-- TX_ACCEPT in timed mode (R200, R201). -/
theorem txAccept_timed {s : State} {e : Nat} (hm : s.cfg.atomicMode = false) :
    txAccept e s = andThen (capture e s) fun x => .next (s.startAccepted e x) := by
  unfold txAccept
  congr 1
  funext x
  exact sched_timed (by exact hm) _ _

/-- Settles O23: every check of START is passed, and the context is the four registers. -/
theorem startAcceptsTimed : Obligations.StartAcceptsTimed := by
  intro s e off hm hv he hread hmode hidle hpos hmax
  rw [exec_startOperation_of_lt he,
    startOn_eq_txAccept (hread _ (by simp)) hmode hidle (hread _ (by simp)) hpos hmax,
    txAccept_timed hm, capture_of_readable (hread _ (by simp)) (hread _ (by simp))
      (hread _ (by simp)) (hread _ (by simp)), andThen_next, State.startAccepted, State.setStatus,
    statusBusy, fitWord, Config.one_mod_two_pow_regWidth hv]
  rfl

/-! ### What a command word can do in timed mode (R161 to R163) -/

/-- The next states of a command word with opcode `op` and endpoint id `e`, in timed mode. -/
inductive TimedCommand (op e : Nat) (s : State) : State → Prop where
  | unchanged : TimedCommand op e s s
  | report (k : ErrCode) (d : Nat) : TimedCommand op e s (s.raise .exec k e d)
  | accept (hop : op = 1) (x : TxCtx) : TimedCommand op e s (s.startAccepted e x)
  | advance (hop : op = 2) (p n : Nat) :
      TimedCommand op e s ((s.setReg e .bufferReadPtr p).setReg e .bufferMessageCount n)

section
variable {op e off : Nat} {s t : State}

/-- A START in timed mode reports or is accepted (R153). -/
theorem startOn_timed (hm : s.cfg.atomicMode = false) (h : startOn e s = .next t) :
    TimedCommand 1 e s t := by
  obtain ⟨m, -, h⟩ := andThen_eq_next.1 h
  split_ifs at h
  · cases h
    exact .report ..
  · cases h
    exact .report ..
  · cases h
    exact .report ..
  · obtain ⟨len, -, h⟩ := andThen_eq_next.1 h
    split_ifs at h
    · cases h
      exact .report ..
    · rw [txAccept_timed hm] at h
      obtain ⟨x, -, ⟨⟩⟩ := andThen_eq_next.1 h
      exact .accept rfl x

/-- In timed mode a command word changes nothing, reports, is an accepted START, or advances a read
pointer (R151, R161). -/
theorem exec_commandOf_timed (hm : s.cfg.atomicMode = false)
    (h : exec (commandOf op e off) s = .next t) : TimedCommand op e s t := by
  obtain he | he := le_or_gt s.cfg.endpointCount e
  · cases (exec_commandOf_of_le he op off).symm.trans h
    exact .report ..
  match op with
  | 0 =>
    cases (inRange_of_lt he _).symm.trans h
    exact .unchanged
  | 1 => exact startOn_timed hm ((inRange_of_lt he _).symm.trans h)
  | 2 =>
    obtain ⟨-, rfl⟩ | ⟨-, rfl⟩ := fcAdvanceRead_eq_next ((inRange_of_lt he _).symm.trans h)
    · exact .report ..
    · exact .advance rfl ..
  | _ + 3 =>
    cases (inRange_of_lt he _).symm.trans h
    exact .report ..

/-- A command word leaves COMMAND, local memory, what is outstanding and the ports alone (R161,
R162). -/
theorem TimedCommand.globals (h : TimedCommand op e s t) :
    t.cfg = s.cfg ∧ t.command = s.command ∧ t.mem = s.mem ∧ t.outstanding = s.outstanding ∧
      t.memOut = s.memOut ∧ t.netOut = s.netOut ∧ t.netInOut = s.netInOut ∧
      t.accessOut = s.accessOut := by
  cases h <;> exact ⟨rfl, rfl, rfl, rfl, rfl, rfl, rfl, rfl⟩

/-- A command word leaves the other endpoints alone. -/
theorem TimedCommand.ep_of_ne (h : TimedCommand op e s t) {x : Nat} (hx : x ≠ e) :
    t.ep x = s.ep x := by
  have hother (u : State) (g : Endpoint → Endpoint) : (u.modifyEp e g).ep x = u.ep x :=
    (u.modifyEp_ep e x g).trans (if_neg fun hc => hx hc.1)
  cases h with
  | unchanged | report => rfl
  | accept => exact hother _ _
  | advance => exact (hother _ _).trans (hother _ _)

/-- A command word writes no register but the read pointer and the count, which
INCREMENT_READ_POINTER writes. -/
theorem TimedCommand.reg_eq (h : TimedCommand op e s t) {f : Field}
    (hf : ¬(op = 2 ∧ (f = .bufferReadPtr ∨ f = .bufferMessageCount))) : t.reg e f = s.reg e f := by
  cases h with
  | unchanged | report => rfl
  | accept => exact State.setActivity_reg ..
  | advance hop =>
    rw [State.setReg_reg, if_neg fun hc => hf ⟨hop, .inr hc.2.2.symm⟩, State.setReg_reg,
      if_neg fun hc => hf ⟨hop, .inl hc.2.2.symm⟩]

/-- Only an accepted START writes STATUS, schedules, or changes an operation state (R163, R200). -/
theorem TimedCommand.of_ne_start (h : TimedCommand op e s t) (hop : op ≠ 1) :
    t.status = s.status ∧ t.pending = s.pending ∧ ∀ x, t.activity x = s.activity x := by
  cases h with
  | unchanged | report => exact ⟨rfl, rfl, fun _ => rfl⟩
  | accept hstart => exact absurd hstart hop
  | advance => exact ⟨rfl, rfl, fun x => by rw [State.setReg_activity, State.setReg_activity]⟩

end

/-- Settles O27: the frame of each of the four next states of `TimedCommand`. -/
theorem timedCommandFrame : Obligations.TimedCommandFrame := by
  intro s t w hm h
  have hcase := exec_commandOf_timed hm h
  obtain ⟨hcfg, hcommand, hmem, houtstanding, hports⟩ := hcase.globals
  obtain ⟨hmemOut, hnetOut, hnetInOut, haccessOut⟩ := hports
  exact ⟨hcfg, hcommand, fun a => by rw [hmem], houtstanding, hmemOut, hnetOut, hnetInOut,
    haccessOut, fun _ => hcase.ep_of_ne, fun _ => hcase.reg_eq, hcase.of_ne_start⟩

/-! ### The executor's run (R150, R151) -/

/-- The executor runs what COMMAND decodes to, and then the access response is delivered. -/
theorem executeAndRespond_eq (s : State) : executeAndRespond s =
    andThen (exec (decodeCommand s.cfg s.command) s) fun t =>
      .next { t with accessOut := t.accessOut ++ [.writeDone .command] } := rfl

/-- Settles O9: the continuation that runs is the executor's. -/
theorem stepRunsExecutor : Obligations.StepRunsExecutor := fun _ _ _ hv ht hk =>
  (step_of_run hv ht hk).trans (executeAndRespond_eq _)

/-- Settles O7: in atomic mode the placed word is a COMMAND write, which runs the executor at once,
and in timed mode it stands in COMMAND with the executor's run next. -/
theorem stepRunsPlacedCommand : Obligations.StepRunsPlacedCommand := by
  intro s nbits w hv
  unfold State.withFetchWord placeCommand
  split
  · next hm =>
    rw [step_of_event (by exact hv) rfl]
    change regWrite .command _ s = _
    rw [regWrite_command, sched_atomic (by exact hm)]
    exact executeAndRespond_eq _
  · exact stepRunsExecutor _ 0 s.timeline hv rfl rfl

end Sys2Proof.Machine

namespace Sys2Proof.Machine

/-! ### The outcomes of FC_ADVANCE (R182, R183) -/

section
variable {s : State} {e : Nat} {f : Field}

/-- The registers an advance of pointer `f` reads are readable (R55, R180; log 3). -/
abbrev State.ringReadable (s : State) (e : Nat) (f : Field) : Prop :=
  ∀ g ∈ [Field.bufferAddr, .bufferSize, .bufferMessageCount, f], s.readable e g = true

/-- What an advance of pointer `f` reads (R180). -/
def State.ring (s : State) (e : Nat) (f : Field) : RingRegs :=
  ⟨(s.reg e .bufferAddr).value, (s.reg e .bufferSize).value, (s.reg e .bufferMessageCount).value,
    (s.reg e f).value⟩

/-- After a successful advance of pointer `f`, with `n` the new count (R182, R183). -/
def State.advanced (s : State) (e : Nat) (f : Field) (n : Nat) : State :=
  (s.setReg e f (nextPointer s.cfg.slotSize (s.ring e f))).setReg e .bufferMessageCount n

theorem ringRegs_of_ringReadable (h : s.ringReadable e f) : ringRegs e f s = .next (s.ring e f) :=
  ringRegs_of_readable (h _ (by simp)) (h _ (by simp)) (h _ (by simp)) (h _ (by simp))

/-- A consumer advance of an empty buffer is one report (R182). -/
theorem fcAdvanceRead_of_empty (h : s.ringReadable e .bufferReadPtr)
    (hcount : (s.reg e .bufferMessageCount).value = 0) :
    fcAdvanceRead e s = .next (s.raise .exec .bufferEmpty e 0) := by
  rw [fcAdvanceRead, ringRegs_of_ringReadable h, andThen_next,
    if_pos (by simp [ringEmpty, State.ring, hcount])]

/-- A consumer advance of a buffer with a message takes it out (R182). -/
theorem fcAdvanceRead_of_message (h : s.ringReadable e .bufferReadPtr)
    (hcount : 0 < (s.reg e .bufferMessageCount).value) :
    fcAdvanceRead e s =
      .next (s.advanced e .bufferReadPtr ((s.reg e .bufferMessageCount).value - 1)) := by
  rw [fcAdvanceRead, ringRegs_of_ringReadable h, andThen_next,
    if_neg (by simp [ringEmpty, State.ring, hcount.ne'])]
  rfl

/-- A producer advance of a full buffer is one report (R183). -/
theorem fcAdvanceWrite_of_full (h : s.ringReadable e .bufferWritePtr)
    (hfull : (s.reg e .bufferSize).value ≤ (s.reg e .bufferMessageCount).value) :
    fcAdvanceWrite e s = .next (s.raise .rx .bufferFull e 0, .reject .bufferFull) := by
  rw [fcAdvanceWrite, ringRegs_of_ringReadable h, andThen_next,
    if_pos (by simp [ringFull, State.ring, hfull])]

/-- A producer advance of a buffer with room counts one message more (R183). -/
theorem fcAdvanceWrite_of_room (h : s.ringReadable e .bufferWritePtr)
    (hroom : (s.reg e .bufferMessageCount).value < (s.reg e .bufferSize).value) :
    fcAdvanceWrite e s =
      .next (s.advanced e .bufferWritePtr ((s.reg e .bufferMessageCount).value + 1), .ack) := by
  rw [fcAdvanceWrite, ringRegs_of_ringReadable h, andThen_next,
    if_neg (by simp [ringFull, State.ring, hroom.not_ge])]
  rfl

end

/-- Settles O21: an advance writes the pointer and then the count, here written as one change. -/
theorem incrementReadPointerResult : Obligations.IncrementReadPointerResult := by
  intro s e off he hwritten
  have hread : s.ringReadable e .bufferReadPtr := fun f hf =>
    State.readable_of_written (hwritten f hf)
  refine ⟨fun hempty => (inRange_of_lt he _).trans (fcAdvanceRead_of_empty hread hempty),
    fun hmessage => (inRange_of_lt he _).trans ?_⟩
  rw [fcAdvanceRead_of_message hread hmessage]
  simp only [State.advanced, State.setReg, State.modifyEp, modify_modify]
  rfl

/-! ### Slots (R186, R188) -/

/-- Addition of a slot with wraparound is the next slot modulo the size (R181, R186). -/
theorem nextPointer_slot {slot base cap occ k : Nat} (hslot : 0 < slot) (hk : k < cap) :
    nextPointer slot ⟨base, cap, occ, base + k * slot⟩ = base + (k + 1) % cap * slot := by
  have hnext : base + k * slot + slot = base + (k + 1) * slot := by ring
  rw [nextPointer, hnext]
  obtain (hlt : k + 1 < cap) | (hlast : k + 1 = cap) := Nat.lt_or_eq_of_le hk
  · have := Nat.mul_lt_mul_of_pos_right hlt hslot
    rw [if_neg (by dsimp only; omega), Nat.mod_eq_of_lt hlt]
  · simp [← hlast]

/-- Endpoint `e` has `cap` slots at `base` that lie in the address space (R186), with pointer `f` at
slot `k` and `n` as its count. -/
structure RingAt (c : Config) (e : Nat) (f : Field) (base cap k n : Nat) (s : State) : Prop where
  cfg : s.cfg = c
  exists_ep : e < s.endpoints.length
  slot_pos : 0 < c.slotSize
  fits : base + cap * c.slotSize ≤ 2 ^ c.regWidth
  addr : (s.reg e .bufferAddr).value = base
  size : (s.reg e .bufferSize).value = cap
  pointer : (s.reg e f).value = base + k * c.slotSize
  slot_lt : k < cap
  count : (s.reg e .bufferMessageCount).value = n

section
variable {c : Config} {s : State} {e base cap k n m : Nat} {f : Field}

/-- An advance writes its pointer and the count only. -/
theorem State.advanced_reg_of_ne {g : Field} (hg : g ≠ f) (hcount : g ≠ .bufferMessageCount) :
    (s.advanced e f n).reg e g = s.reg e g := by
  rw [State.advanced, State.setReg_reg, if_neg fun h => hcount h.2.2.symm, State.setReg_reg,
    if_neg fun h => hg h.2.2.symm]

/-- The count an advance stores. -/
theorem State.advanced_count (he : e < s.endpoints.length) :
    (s.advanced e f n).reg e .bufferMessageCount = ⟨fitWord s.cfg n, true⟩ := by
  rw [State.advanced, State.setReg_reg, if_pos ⟨rfl, by simpa using he, rfl⟩, State.setReg_cfg]

/-- The pointer an advance stores. -/
theorem State.advanced_pointer (he : e < s.endpoints.length) (hf : f ≠ .bufferMessageCount) :
    (s.advanced e f n).reg e f =
      ⟨fitWord s.cfg (nextPointer s.cfg.slotSize (s.ring e f)), true⟩ := by
  rw [State.advanced, State.setReg_reg, if_neg fun h => hf h.2.2.symm, State.setReg_reg,
    if_pos ⟨rfl, he, rfl⟩]

/-- A register that is set stays readable, and so does every other. -/
theorem State.readable_setReg {g : Field} (h : s.readable e g = true) (f : Field) (v : Nat) :
    (s.setReg e f v).readable e g = true := by
  rw [State.readable, State.setReg_reg]
  split
  · simp
  · exact h

theorem State.ringReadable.advanced (h : s.ringReadable e f) :
    (s.advanced e f n).ringReadable e f := fun g hg =>
  State.readable_setReg (State.readable_setReg (h g hg) _ _) _ _

/-- An advance takes the pointer to the next slot, modulo the size, and stores the count (R186). -/
theorem RingAt.advanced (h : RingAt c e f base cap k n s)
    (hf : f ∈ [Field.bufferReadPtr, .bufferWritePtr]) (hm : m < 2 ^ c.regWidth) :
    RingAt c e f base cap ((k + 1) % cap) m (s.advanced e f m) := by
  have hring : s.ring e f = ⟨base, cap, n, base + k * c.slotSize⟩ := by
    rw [State.ring, h.addr, h.size, h.count, h.pointer]
  have hslot : (k + 1) % cap < cap := Nat.mod_lt _ (Nat.zero_lt_of_lt h.slot_lt)
  have hne (g : Field) (hg : g = .bufferAddr ∨ g = .bufferSize) :
      (s.advanced e f m).reg e g = s.reg e g := by
    obtain rfl | rfl := hg <;>
      exact State.advanced_reg_of_ne (by rintro rfl; simp at hf) (by simp)
  exact { h with
    exists_ep := by simpa [State.advanced] using h.exists_ep
    addr := hne .bufferAddr (.inl rfl) ▸ h.addr
    size := hne .bufferSize (.inr rfl) ▸ h.size
    pointer := by
      rw [State.advanced_pointer h.exists_ep (by rintro rfl; simp at hf), hring, h.cfg,
        nextPointer_slot h.slot_pos h.slot_lt]
      exact onSlot_fitWord h.slot_pos h.fits ⟨_, hslot, rfl⟩
    slot_lt := hslot
    count := by
      rw [State.advanced_count h.exists_ep, h.cfg]
      exact Nat.mod_eq_of_lt hm }

end

/-- Settles O28: either advance answers with the state of `RingAt.advanced`. -/
theorem advanceKeepsSlot : Obligations.AdvanceKeepsSlot := by
  rintro s e k hfit he hslot base cap occ rfl rfl rfl - hend hk -
  have hring (f : Field) (hpointer : (s.reg e f).value =
      (s.reg e .bufferAddr).value + k * s.cfg.slotSize) : RingAt s.cfg e f _ _ k _ s :=
    ⟨rfl, he, hslot, hend, rfl, rfl, hpointer, hk, rfl⟩
  obtain ⟨-, -, hlt⟩ := (State.regsFit_iff s).1 hfit
  refine ⟨fun hpointer hpos t h => ?_, fun hpointer t h => ?_⟩
  · obtain ⟨hzero, -⟩ | ⟨-, rfl⟩ := fcAdvanceRead_eq_next h
    · exact absurd hzero hpos.ne'
    · have hnext := (hring _ hpointer).advanced (by simp)
        ((Nat.sub_le _ 1).trans_lt (hlt e .bufferMessageCount))
      exact ⟨hnext.pointer, hnext.count⟩
  · obtain ⟨-, hx⟩ | ⟨hroom, hx⟩ := fcAdvanceWrite_eq_next h
    · cases hx
    · cases hx
      have hnext := (hring _ hpointer).advanced (by simp)
        (Nat.lt_of_le_of_lt hroom (hlt e .bufferSize))
      exact ⟨hnext.pointer, hnext.count, hroom⟩

/-! ### Consecutive advances (R188) -/

/-- The last of `j + 1` runs comes after `j` of them. -/
theorem repeated_succ (F : State → Ans State) (j : Nat) (s : State) :
    repeated F (j + 1) s = andThen (repeated F j s) F := by
  induction j generalizing s with
  | zero => cases h : F s <;> simp [repeated, h]
  | succ j ih =>
    rw [repeated]
    conv_rhs => rw [repeated]
    cases F s with
    | next t => exact ih t
    | fault r => rfl
    | refused r => rfl

/-- Consecutive advances of pointer `f` from slot 0, the `j`th of which leaves the count `count j`:
after `j` of them the pointer is at slot `j` modulo the size, and nothing is reported (R186,
R188). -/
theorem RingAt.repeated_advances {c : Config} {s : State} {e base cap m : Nat} {f : Field}
    {count : Nat → Nat} {F : State → Ans State} (h : RingAt c e f base cap 0 (count 0) s)
    (hf : f ∈ [Field.bufferReadPtr, .bufferWritePtr]) (hread : s.ringReadable e f)
    (hcount : ∀ j ≤ m, count j < 2 ^ c.regWidth)
    (hF : ∀ j < m, ∀ t, t.ringReadable e f → (t.reg e .bufferSize).value = cap →
      (t.reg e .bufferMessageCount).value = count j →
      F t = .next (t.advanced e f (count (j + 1)))) {j : Nat} (hj : j ≤ m) :
    ∃ t, repeated F j s = .next t ∧ RingAt c e f base cap (j % cap) (count j) t ∧
      t.ringReadable e f ∧ t.reports = s.reports := by
  induction j with
  | zero => exact ⟨s, rfl, (Nat.zero_mod cap).symm ▸ h, hread, rfl⟩
  | succ j ih =>
    obtain ⟨t, ht, hring, hread, hreports⟩ := ih (Nat.le_of_succ_le hj)
    refine ⟨t.advanced e f (count (j + 1)), ?_, ?_, hread.advanced, hreports⟩
    · rw [repeated_succ, ht, andThen_next, hF j hj t hread hring.size hring.count]
    · exact Nat.mod_add_mod j cap 1 ▸ hring.advanced hf (hcount _ hj)

/-- Settles O29: both directions are `RingAt.repeated_advances`, the consumer's counting down and
the producer's up. -/
theorem advancePeriod : Obligations.AdvancePeriod := by
  rintro s e base cap occ hfit he hslot hbase hcap hocc hpos hend hread
  have hring (f : Field) (hpointer : (s.reg e f).value = base) :
      RingAt s.cfg e f base cap 0 occ s :=
    ⟨rfl, he, hslot, hend, hbase.symm, hcap.symm, by simp [hpointer], hpos, hocc.symm⟩
  obtain ⟨-, -, hlt⟩ := (State.regsFit_iff s).1 hfit
  have hcap_lt := hlt e .bufferSize
  have hocc_lt := hlt e .bufferMessageCount
  refine ⟨fun hpointer j hj => ?_, fun hpointer j hj => ?_⟩
  · obtain ⟨t, ht, hring, -, hreports⟩ := (hring .bufferReadPtr hpointer).repeated_advances
      (m := occ) (count := fun i => occ - i) (F := fcAdvanceRead e) (by simp)
      (fun g hg => hread g (by revert hg; cases g <;> decide)) (fun i _ => by omega)
      (fun i hi t ht _ hn => by
        rw [fcAdvanceRead_of_message ht (by omega), hn]
        rfl) hj
    exact ⟨t, ht, hreports, hring.pointer, hring.count⟩
  · obtain ⟨t, ht, hring, -, hreports⟩ := (hring .bufferWritePtr hpointer).repeated_advances
      (m := j) (count := fun i => occ + i)
      (F := fun u => andThen (fcAdvanceWrite e u) fun r => .next r.1) (by simp)
      (fun g hg => hread g (by revert hg; cases g <;> decide)) (fun i _ => by omega)
      (fun i hi t ht hsize hn => by
        rw [fcAdvanceWrite_of_room ht (by omega), andThen_next, hn]
        rfl) le_rfl
    exact ⟨t, ht, hreports, hring.pointer, hring.count⟩

/-! ### RX_FINISH (R252, R253) -/

/-- RX_FINISH: with room the producer advance and ACK, else the late rejection, and Idle. -/
theorem rxFinish_of_ringReadable (s : State) {f : Nat} {c : RxCtx}
    (hc : s.activity f = .receiving c) (hread : s.ringReadable f .bufferWritePtr) :
    ((s.reg f .bufferMessageCount).value < (s.reg f .bufferSize).value →
      rxFinish f s = .next { s with
        netInOut := s.netInOut ++ [⟨c.reply, .ack⟩]
        endpoints := s.endpoints.modify f fun p => { p with
          bufferWritePtr :=
            ⟨fitWord s.cfg (nextPointer s.cfg.slotSize (s.ring f .bufferWritePtr)), true⟩
          bufferMessageCount := ⟨fitWord s.cfg ((s.reg f .bufferMessageCount).value + 1), true⟩
          activity := .idle } }) ∧
    ((s.reg f .bufferSize).value ≤ (s.reg f .bufferMessageCount).value →
      rxFinish f s = .next { s with
        netInOut := s.netInOut ++ [⟨c.reply, .reject .bufferFull⟩]
        reports := s.reports ++ [⟨.rx, .bufferFull, f, 0⟩]
        endpoints := s.endpoints.modify f fun p => { p with activity := .idle } }) := by
  refine ⟨rxFinish_of_room hc (ringRegs_of_ringReadable hread), fun hfull => ?_⟩
  unfold rxFinish
  rw [hc]
  dsimp only
  rw [fcAdvanceWrite_of_full hread hfull]
  rfl

/-- Settles O45: the step is RX_FINISH, which the advance of the write pointer decides. -/
theorem rxFinishStep : Obligations.RxFinishStep := by
  intro s k f rest c hv ht hk hc hread
  rw [step_of_run hv ht hk]
  exact rxFinish_of_ringReadable { s with timeline := rest, pending := s.pending.eraseIdx k } hc
    hread

/-! ### EV_RX_WRITE_DONE (R251) -/

/-- EV_RX_WRITE_DONE is RX_WRITE_DONE (R251). -/
theorem exec_evRxWriteDone (f : Nat) (s : State) : exec (.evRxWriteDone f) s = rxWriteDone f s :=
  rfl

/-- In timed mode EV_RX_WRITE_DONE frees the tag and makes RX_FINISH pending (R251, R352). -/
theorem rxWriteDone_timed {s : State} {f : Nat} (hm : s.cfg.atomicMode = false) {c : RxCtx}
    (hc : s.activity f = .receiving c) {g : Txn} (hg : g ∈ s.outstanding)
    (htag : g.hasTag .mem .forwardedTag f = true) :
    rxWriteDone f s = .next { s with
      outstanding := s.outstanding.filter fun x => !x.hasTag .mem .forwardedTag f
      pending := s.pending ++ [.rxFinish f] } := by
  rw [rxWriteDone, takeTag_of_mem hg htag, andThen_next]
  split
  · exact sched_timed (by exact hm) _ _
  · next h => exact absurd hc (h c)

end Sys2Proof.Machine

namespace Sys2Proof.Laws

open Machine

/-- Settles O43: with the tag freed RX_FINISH is pending, or in atomic mode runs at once. -/
theorem rxWriteDone : Obligations.RxWriteDone := by
  intro s f c g hg htag hc
  rw [exec_evRxWriteDone]
  refine ⟨fun hm => rxWriteDone_timed hm hc hg htag, fun hm hread => ?_⟩
  rw [rxWriteDone_atomic hm hc hg htag]
  exact rxFinish_of_ringReadable
    { s with outstanding := s.outstanding.filter fun y => !y.hasTag .mem .forwardedTag f } hc hread

end Sys2Proof.Laws

namespace Sys2Proof.Machine

/-! ### The idle block (R319) -/

/-- Settles O15: no event is taken, and no continuation is there to run. -/
theorem idleBlockStays : Obligations.IdleBlockStays := by
  intro s hv ht hp
  rw [step_of_no_event hv ht, runPending, hp]
  rfl

/-! ### The transmit sequencer's events and continuations (R202 to R207) -/

/-- Settles O31: the tag is freed, the data has the captured length, and TX_SEND is scheduled. -/
theorem txReadDoneTimed : Obligations.TxReadDoneTimed := fun _ _ d _ _ hm hg htag hx hd =>
  (txReadDone_of_transmitting hg htag hx d).trans
    ((if_pos hd).trans (sched_timed (by exact hm) _ _))

/-- Settles O34: the tag is freed and TX_FINAL is scheduled, whatever the answer. -/
theorem txAnswerTimed : Obligations.TxAnswerTimed := by
  intro s e x g hm hg htag hx
  have hanswer (st : NetStatus) :=
    (txResponded_of_transmitting hg htag hx st).trans (sched_timed (by exact hm) _ _)
  exact ⟨hanswer .ack, fun k => hanswer (.reject k)⟩

section
variable {s : State} {e : Nat} {x : TxCtx}

/-- In atomic mode the answer frees the tag and finalises the operation (R206, R207, R351). -/
theorem txResponded_atomic (hm : s.cfg.atomicMode = true) {g : Txn} (hg : g ∈ s.outstanding)
    (htag : g.hasTag .net .localTag e = true) (hx : s.activity e = .transmitting x)
    (st : NetStatus) : txResponded e st s = .next { s with
      command := 0
      status := 0
      endpoints := s.endpoints.modify e fun p => { p with activity := .idle }
      outstanding := s.outstanding.filter fun y => !y.hasTag .net .localTag e
      reports := s.reports ++ finalReports e st } := by
  rw [txResponded_of_transmitting hg htag hx, sched_atomic (by exact hm), txFinal_eq]

/-- TX_ISSUE_READ of a Transmitting endpoint in timed mode issues the read (R202). -/
theorem txIssueRead_timed (hm : s.cfg.atomicMode = false) (hx : s.activity e = .transmitting x) :
    txIssueRead e s = .next (s.issueMem ⟨x.msgAddr, x.length, .read, [], .localTag, e⟩) := by
  rw [txIssueRead, hx]
  exact if_neg (by simp [hm])

/-- In timed mode the network's answer is a later event (R204). -/
theorem netAnswer_timed (hm : s.cfg.atomicMode = false) (r : NetReq) :
    netAnswer e r s = .next s := if_neg (by simp [hm])

end

/-- Settles O35: either answer finalises within the step; an acknowledgment reports nothing. -/
theorem txAnswerAtomic : Obligations.TxAnswerAtomic := by
  intro s e x g hm hg htag hx
  refine ⟨(txResponded_atomic hm hg htag hx .ack).trans ?_,
    fun k => txResponded_atomic hm hg htag hx (.reject k)⟩
  rw [finalReports, List.append_nil]

/-- Settles O33: each step is its continuation, of an endpoint that is Transmitting. -/
theorem txContinuationsTimed : Obligations.TxContinuationsTimed := by
  refine fun s k e rest x msg hv hm ht hx => ⟨fun hk => ?_, fun hk => ?_⟩
  · exact (step_of_run hv ht hk).trans (txIssueRead_timed (by exact hm) (by exact hx))
  · exact (step_of_run hv ht hk).trans
      ((txSend_of_transmitting (by exact hx) msg).trans (netAnswer_timed (by exact hm) _))

/-- Settles O36: the step is TX_FINAL, whose one report is that of a rejection. -/
theorem txFinalStep : Obligations.TxFinalStep := by
  intro s k e rest st hv ht hk
  rw [step_of_run hv ht hk, continueWith, txFinal_eq]
  cases st <;> rfl

end Sys2Proof.Machine

namespace Sys2Proof.Machine

/-! ### The verdict of the receive chain (R241) -/

section
variable {s : State} {e f : Nat} {k : ErrCode}

/-- No check refuses a message for an Idle endpoint in range, in receive mode, with room. -/
theorem State.arrivalRefusal_eq_none (h : s.arrivalRefusal f = none) :
    f < s.cfg.endpointCount ∧ (s.reg f .mode).value = 1 ∧ s.activity f = .idle ∧
      (s.reg f .bufferMessageCount).value < (s.reg f .bufferSize).value := by
  unfold State.arrivalRefusal at h
  split_ifs at h with hrange htransmit hinvalid hbusy hfull
  exact ⟨not_le.1 hrange, not_not.1 hinvalid, not_not.1 hbusy, not_le.1 hfull⟩

/-- The verdict depends on the configuration and the registers of the endpoint, and in receive mode
on its operation state. -/
theorem State.arrivalRefusal_congr {t : State} (hcfg : t.cfg = s.cfg)
    (hreg : ∀ g, t.reg f g = s.reg f g)
    (hactivity : (s.reg f .mode).value = 1 → t.activity f = s.activity f) :
    t.arrivalRefusal f = s.arrivalRefusal f := by
  unfold State.arrivalRefusal
  simp only [hcfg, hreg]
  by_cases hmode : (s.reg f .mode).value = 1
  · rw [hactivity hmode]
  · simp only [ne_eq, hmode, not_false_eq_true, if_true]

/-- The checks of an arrival in their order, once MODE is read (R241). -/
theorem rxArrive_of_readable {addr : Nat} (hf : s.cfg.netEpOf addr = f)
    (hr : f < s.cfg.endpointCount) (hread : s.readable f .mode = true) (size : Nat) (data : Bytes)
    (reply : Reply) :
    rxArrive addr size data reply s =
      if (s.reg f .mode).value = 0 then .next (rxReject reply .notReceive f s)
      else if (s.reg f .mode).value ≠ 1 then .next (rxReject reply .invalidMode f s)
      else if s.activity f ≠ .idle then .next (rxReject reply .epBusy f s)
      else rxMessage f size data reply s := by
  subst hf
  rw [rxArrive]
  simp only [not_le.2 hr, if_false, needReg_of_readable hread, andThen_next, modeTransmit,
    modeReceive, State.isIdle, Bool.not_eq_true', decide_eq_false_iff_not, ne_eq]

/-- A well-formed message of legal size that a check refuses is rejected with the check's code. -/
theorem rxArrive_of_arrivalRefusal {addr : Nat} (hf : s.cfg.netEpOf addr = f)
    (h : s.arrivalRefusal f = some k) (hmode : f < s.cfg.endpointCount → s.readable f .mode = true)
    (hring : k = .bufferFull →
      s.readable f .bufferMessageCount = true ∧ s.readable f .bufferSize = true)
    {size sc se n : Nat} {data payload : Bytes}
    (hsplit : splitMessage data = some (sc, se, n, payload)) (hn : 0 < n)
    (hsize : n + Config.headerSize = size) (hmax : size ≤ s.cfg.maxMessageSize) (reply : Reply) :
    rxArrive addr size data reply s = .next (rxReject reply k f s) := by
  unfold State.arrivalRefusal at h
  obtain hle | hr := le_or_gt s.cfg.endpointCount f
  · rw [if_pos hle] at h
    obtain rfl := Option.some.inj h
    subst hf
    exact if_pos hle
  · rw [if_neg (not_le.2 hr)] at h
    rw [rxArrive_of_readable hf hr (hmode hr)]
    split_ifs at h ⊢ with htransmit hinvalid hbusy hfull <;> obtain rfl := Option.some.inj h
    · rfl
    · rfl
    · rfl
    · obtain ⟨hcount, hcap⟩ := hring rfl
      rw [rxMessage_eq hsplit hn hsize hmax, needReg_of_readable hcount, andThen_next,
        needReg_of_readable hcap, andThen_next, if_pos (by simpa [ringFull] using hfull)]

/-! ### An accepted message in atomic mode, whatever is outstanding (R248 to R252) -/

/-- A message stored and acknowledged (R250, R252). -/
def State.received (s : State) (f : Nat) (c : RxCtx) (ms : List MemAnswer) : State :=
  { s with
    mem := writeBytes s.cfg s.mem (s.reg f .bufferWritePtr).value c.payload
    memAnswers := ms
    memOut := s.memOut ++
      [⟨(s.reg f .bufferWritePtr).value, c.length, .write, c.payload, .forwardedTag, f⟩]
    netInOut := s.netInOut ++ [⟨c.reply, .ack⟩]
    outstanding := s.outstanding.filter fun y => !y.hasTag .mem .forwardedTag f
    endpoints := s.endpoints.modify f fun p => { p with
      bufferWritePtr :=
        ⟨fitWord s.cfg (nextPointer s.cfg.slotSize (s.ring f .bufferWritePtr)), true⟩
      bufferMessageCount := ⟨fitWord s.cfg ((s.reg f .bufferMessageCount).value + 1), true⟩ } }

/-- The state without the transaction of the write to `f` (R40). -/
def State.dropWrite (s : State) (f : Nat) : State :=
  { s with outstanding := s.outstanding.filter fun y => !y.hasTag .mem .forwardedTag f }

/-- The write of an accepted message takes the place of a transaction with its tag (R40, R250). -/
theorem rxAccept_replacing (hm : s.cfg.atomicMode = true) (hl : f < s.endpoints.length)
    (hr : s.readable f .bufferWritePtr = true) (c : RxCtx) :
    rxAccept f c s =
      memAnswered .forwardedTag f [] (rxWriteResponse f) ((s.dropWrite f).withWrite f c) := by
  have hactivity : (s.setActivity f (.receiving c)).activity f = .receiving c :=
    s.withWrite_activity hl c
  have hreadable : (s.setActivity f (.receiving c)).readable f .bufferWritePtr = true := by
    rw [State.readable, State.setActivity_reg]
    exact hr
  refine (sched_atomic (by exact hm) _ _).trans
    ((rxIssueWrite_of_receiving hactivity hreadable ?_).trans (if_pos (by exact hm)))
  rw [State.setActivity_reg]
  rfl

/-- In atomic mode the completed write of an accepted message finishes it (R251, R252, R351). -/
theorem rxAccept_given (hm : s.cfg.atomicMode = true) (hl : f < s.endpoints.length)
    (hidle : s.activity f = .idle) (hread : s.ringReadable f .bufferWritePtr)
    (hroom : (s.reg f .bufferMessageCount).value < (s.reg f .bufferSize).value)
    {ms : List MemAnswer} (hms : memGives s.memAnswers [] [] ms) (c : RxCtx) :
    rxAccept f c s = .next (s.received f c ms) := by
  have hactivity : ((s.dropWrite f).withWrite f c).activity f = .receiving c :=
    State.withWrite_activity (by exact hl) c
  have hring : ringRegs f .bufferWritePtr ((s.dropWrite f).withWrite f c) =
      .next (s.ring f .bufferWritePtr) :=
    (ringRegs_congr (s := s.dropWrite f) (by rfl) (State.withWrite_reg c)).trans
      (ringRegs_of_ringReadable (by exact hread))
  have hdropped : ((s.dropWrite f).withWrite f c).outstanding.filter
      (fun y => !y.hasTag .mem .forwardedTag f) = (s.dropWrite f).outstanding := by
    simp [State.withWrite, State.dropWrite, Txn.hasTag]
  rw [rxAccept_replacing hm hl (hread _ (by simp)), memAnswered_of_gives (by exact hms),
    rxWriteResponse, if_pos rfl, rxWriteDone_atomic (by exact hm) (by exact hactivity)
      (List.mem_append_right _ (List.mem_singleton_self _)) (by simp [Txn.hasTag])]
  refine (rxFinish_of_room (by exact hactivity) (by exact hring) hroom).trans ?_
  simp only [hdropped]
  simp only [State.withWrite, State.received, State.dropWrite]
  rw [State.modify_modify_of_idle hidle]
  · rfl
  · rintro p hp
    rw [← hp]
    rfl

end

/-! ### A message to the unit's own core in atomic mode (R210, R254) -/

section
variable {s t : State} {e f : Nat} {r : NetReq}

/-- The response the own receive chain gives within the step is the network's answer (R351). -/
theorem netAnswer_of_response (hm : s.cfg.atomicMode = true)
    (hcore : s.cfg.netCoreOf r.addr = s.cfg.coreId)
    (h : rxArrive r.addr r.size r.data (.own e) s = .next t) {y : NetInResp}
    (hresponse : t.netInOut = s.netInOut ++ [y]) : netAnswer e r s = txResponded e y.status t := by
  rw [netAnswer, if_pos hm, if_pos hcore, h, andThen_next, hresponse, List.drop_left]
  rfl

/-- Where the own receive chain gives no response within the step, the message stays in flight
(R209). -/
theorem netAnswer_of_no_response (hm : s.cfg.atomicMode = true)
    (hcore : s.cfg.netCoreOf r.addr = s.cfg.coreId)
    (h : rxArrive r.addr r.size r.data (.own e) s = .next t) (hsilent : t.netInOut = s.netInOut) :
    netAnswer e r s = .next t := by
  rw [netAnswer, if_pos hm, if_pos hcore, h, andThen_next, hsilent, List.drop_length]
  rfl

/-- In atomic mode endpoint `e` has issued its message, of legal size, to endpoint `f` of the unit's
own core (R204, R210). -/
structure OwnMessage (s : State) (e f : Nat) (x : TxCtx) : Prop where
  atomic : s.cfg.atomicMode = true
  valid : s.cfg.valid = true
  shaped : s.shaped
  transmitting : s.activity e = .transmitting x
  inFlight : ∃ g ∈ s.outstanding, g.hasTag .net .localTag e = true
  length_pos : 1 ≤ x.length
  length_le : x.length + 4 ≤ s.cfg.maxMessageSize
  core : s.cfg.netCoreOf (s.cfg.encodeNetworkAddress x.targetCore x.targetEp) = s.cfg.coreId
  receiver : s.cfg.netEpOf (s.cfg.encodeNetworkAddress x.targetCore x.targetEp) = f

namespace OwnMessage

variable {x : TxCtx} (h : OwnMessage s e f x)
include h

/-- The receiver reads the sender's own core and endpoint from the header (R246). -/
theorem split (d : Bytes) :
    splitMessage (messageOf s.cfg e x.length d) = some (s.cfg.coreId, e, x.length, d) := by
  obtain ⟨-, -, hcount, -, -, hmax, -, hcore, -⟩ := (Config.valid_iff s.cfg).1 h.valid
  have he : e < s.cfg.endpointCount := by
    rw [← h.shaped]
    exact State.lt_length_of_not_idle (by simp [h.transmitting])
  have hlength := h.length_le
  rw [splitMessage_messageOf s.cfg e (by omega), Nat.mod_eq_of_lt (by omega),
    Nat.mod_eq_of_lt (by omega)]

/-- An accepting receiver is another endpoint: the sender is not Idle. -/
theorem ne (hrefusal : s.arrivalRefusal f = none) : e ≠ f := by
  rintro rfl
  obtain ⟨-, -, hidle, -⟩ := State.arrivalRefusal_eq_none hrefusal
  simp [h.transmitting] at hidle

/-- Changing the receiver leaves the sender Transmitting. -/
theorem transmitting_modifyEp (hrefusal : s.arrivalRefusal f = none) (g : Endpoint → Endpoint) :
    (s.modifyEp f g).activity e = .transmitting x := by
  rw [State.activity, State.modifyEp_ep, if_neg fun hc => h.ne hrefusal hc.1]
  exact h.transmitting

/-- A message that no check refuses is accepted (R241, R248). -/
theorem arrive (hrefusal : s.arrivalRefusal f = none)
    (hread : ∀ g ∈ [Field.mode, .bufferMessageCount, .bufferSize], s.readable f g = true)
    (d : Bytes) :
    rxArrive (s.cfg.encodeNetworkAddress x.targetCore x.targetEp) (Config.headerSize + x.length)
      (messageOf s.cfg e x.length d) (.own e) s =
      rxAccept f ⟨s.cfg.coreId, e, x.length, d, .own e⟩ s := by
  obtain ⟨hr, hmode, hidle, hroom⟩ := State.arrivalRefusal_eq_none hrefusal
  exact rxArrive_eq_rxAccept h.receiver hr hread hmode hidle hroom (h.split d) h.length_pos
    (Nat.add_comm ..) ((Nat.add_comm 4 _).trans_le h.length_le) _

/-- Accepted, and its write completed: the message is stored, acknowledged and finalised (R254). -/
theorem netAnswer_given (hrefusal : s.arrivalRefusal f = none)
    (hmode : s.readable f .mode = true) (hread : s.ringReadable f .bufferWritePtr)
    {ms : List MemAnswer} (hms : memGives s.memAnswers [] [] ms) (d : Bytes) {t : State}
    (ht : t = s.received f ⟨s.cfg.coreId, e, x.length, d, .own e⟩ ms) :
    netAnswer e (sendReq s.cfg e x (messageOf s.cfg e x.length d)) s = .next { t with
      command := 0
      status := 0
      endpoints := t.endpoints.modify e fun p => { p with activity := .idle }
      outstanding := (s.outstanding.filter fun y => !y.hasTag .net .localTag e).filter
        fun y => !y.hasTag .mem .forwardedTag f } := by
  obtain ⟨hr, -, hidle, hroom⟩ := State.arrivalRefusal_eq_none hrefusal
  have harrive := (h.arrive hrefusal (by simp [hmode, hread _]) d).trans
    (rxAccept_given h.atomic (h.shaped ▸ hr) hidle hread hroom hms _)
  obtain ⟨g, hg, htag⟩ := h.inFlight
  have hx : t.activity e = .transmitting x := ht ▸ h.transmitting_modifyEp hrefusal _
  have hkept : g ∈ t.outstanding := by
    subst ht
    refine List.mem_filter.2 ⟨hg, ?_⟩
    simp only [Txn.hasTag, Bool.and_eq_true, decide_eq_true_eq] at htag
    simp [Txn.hasTag, htag]
  have hatomic : t.cfg.atomicMode = true := ht ▸ h.atomic
  rw [← ht] at harrive
  refine (netAnswer_of_response h.atomic h.core harrive (by rw [ht]; rfl)).trans
    ((txResponded_atomic hatomic hkept htag hx .ack).trans ?_)
  rw [finalReports, List.append_nil, List.filter_comm, ht]
  rfl

/-- Accepted, with no answer of the memory to its write: both operations stay in flight (U8). -/
theorem netAnswer_silent (hrefusal : s.arrivalRefusal f = none)
    (hread : ∀ g ∈ [Field.mode, .bufferMessageCount, .bufferSize, .bufferWritePtr],
      s.readable f g = true) (hsilent : s.memAnswers.head? = some .silent) (d : Bytes) :
    netAnswer e (sendReq s.cfg e x (messageOf s.cfg e x.length d)) s =
      .next ((s.dropWrite f).withWrite f
        ⟨s.cfg.coreId, e, x.length, d, .own e⟩).dropMemAnswer := by
  obtain ⟨hr, -⟩ := State.arrivalRefusal_eq_none hrefusal
  refine netAnswer_of_no_response h.atomic h.core
    ((h.arrive hrefusal (fun g hg => hread g (by revert hg; cases g <;> decide)) d).trans ?_) rfl
  rw [rxAccept_replacing h.atomic (h.shaped ▸ hr) (hread _ (by simp))]
  exact memAnswered_silent (by exact hsilent) _

/-- Refused: the receiver's report, and then the sender's of the rejection (R207, R249). -/
theorem netAnswer_refused {k : ErrCode} (hrefusal : s.arrivalRefusal f = some k)
    (hmode : f < s.cfg.endpointCount → s.readable f .mode = true)
    (hring : k = .bufferFull →
      s.readable f .bufferMessageCount = true ∧ s.readable f .bufferSize = true) (d : Bytes) :
    netAnswer e (sendReq s.cfg e x (messageOf s.cfg e x.length d)) s = .next { s with
      command := 0
      status := 0
      endpoints := s.endpoints.modify e fun p => { p with activity := .idle }
      outstanding := s.outstanding.filter fun y => !y.hasTag .net .localTag e
      netInOut := s.netInOut ++ [⟨.own e, .reject k⟩]
      reports := s.reports ++ [⟨.rx, k, f, 0⟩, ⟨.tx, .remoteRejected, e, k.number⟩] } := by
  have harrive := rxArrive_of_arrivalRefusal h.receiver hrefusal hmode hring (h.split d)
    h.length_pos (Nat.add_comm _ Config.headerSize) ((Nat.add_comm 4 _).trans_le h.length_le)
    (.own e)
  obtain ⟨g, hg, htag⟩ := h.inFlight
  refine (netAnswer_of_response h.atomic h.core harrive rfl).trans
    ((txResponded_atomic (by exact h.atomic) (by exact hg) htag (by exact h.transmitting) _).trans
      ?_)
  simp [rxReject, State.raise, State.respondNet, finalReports]

end OwnMessage

end

section
variable {s : State} {e f : Nat} {x : TxCtx} {d : Bytes}

/-- What is outstanding without endpoint `e`'s read and message (R40). -/
def State.outstandingWithoutTx (s : State) (e : Nat) : List Txn :=
  (s.outstanding.filter fun y => !y.hasTag .mem .localTag e).filter
    fun y => !y.hasTag .net .localTag e

/-- The read of endpoint `e` is done and its message issued (R203, R204). -/
def State.withSend (s : State) (e : Nat) (x : TxCtx) (d : Bytes) : State :=
  { s with
    outstanding := s.outstandingWithoutTx e ++ [⟨.net, .localTag, e,
      s.cfg.encodeNetworkAddress x.targetCore x.targetEp, Config.headerSize + x.length, []⟩]
    netOut := s.netOut ++ [sendReq s.cfg e x (messageOf s.cfg e x.length d)] }

/-- The answer to the message takes its tag out again. -/
theorem State.withSend_filter :
    (s.withSend e x d).outstanding.filter (fun y => !y.hasTag .net .localTag e) =
      s.outstandingWithoutTx e := by
  simp [State.withSend, State.outstandingWithoutTx, Txn.hasTag]

/-- EV_TX_READ_DONE is TX_READ_DONE (R203). -/
theorem exec_evTxReadDone (e : Nat) (d : Bytes) (s : State) :
    exec (.evTxReadDone e d) s = txReadDone e d s := rfl

/-- In atomic mode the read's completion sends the message (R203, R204, R351). -/
theorem txReadDone_atomic (hm : s.cfg.atomicMode = true) {g : Txn} (hg : g ∈ s.outstanding)
    (htag : g.hasTag .mem .localTag e = true) (hx : s.activity e = .transmitting x)
    (hd : d.length = x.length) :
    txReadDone e d s =
      netAnswer e (sendReq s.cfg e x (messageOf s.cfg e x.length d)) (s.withSend e x d) := by
  rw [txReadDone_of_transmitting hg htag hx, if_pos hd, sched_atomic (by exact hm),
    txSend_of_transmitting (by exact hx)]
  rfl

end

/-- Settles O32: the message is sent, and its answer is the environment's or, for the own core, that
of the receive chain. -/
theorem txReadDoneAtomic : Obligations.TxReadDoneAtomic := by
  rintro s e d x g hv hm hshape hg htag hx hd hpos hmax _ f _ _ rfl hf rfl rfl
  have hissued : ∃ g ∈ (s.withSend e x d).outstanding, g.hasTag .net .localTag e = true :=
    ⟨_, List.mem_append_right _ (List.mem_singleton_self _), by simp [Txn.hasTag]⟩
  have hown (hcore : s.cfg.netCoreOf (s.cfg.encodeNetworkAddress x.targetCore x.targetEp) =
      s.cfg.coreId) : OwnMessage (s.withSend e x d) e f x :=
    ⟨hm, hv, hshape, hx, hissued, hpos, hmax, hcore, hf.symm⟩
  rw [exec_evTxReadDone, txReadDone_atomic hm hg htag hx hd]
  refine ⟨fun hcore st answers hanswer => ?_, fun hcore hnone => ?_,
    fun hcore hrefusal hread _ ms hwptr hms => ?_,
    fun hcore hrefusal hread hsilent _ hwptr => ?_, fun hcore k hrefusal hmode hring => ?_⟩
  · obtain ⟨g, hg, htag⟩ := hissued
    rw [netAnswer_of_answer (by exact hm) (by exact hcore) (by exact hanswer),
      txResponded_atomic (by exact hm) (by exact hg) htag (by exact hx)]
    simp only [State.withSend_filter]
    cases st <;> rfl
  · exact netAnswer_of_no_answer (by exact hm) (by exact hcore) (by exact hnone)
  · subst hwptr
    refine ((hown hcore).netAnswer_given hrefusal (hread _ (by simp))
      (fun g hg => hread g (by revert hg; cases g <;> decide)) hms d rfl).trans ?_
    simp only [State.withSend_filter]
    rfl
  · subst hwptr
    exact (hown hcore).netAnswer_silent hrefusal
      (fun g hg => hread g (by revert hg; cases g <;> decide)) hsilent d
  · refine ((hown hcore).netAnswer_refused hrefusal hmode hring d).trans ?_
    simp only [State.withSend_filter]
    rfl

section
variable {s : State} {e f : Nat} {x : TxCtx} {d : Bytes} {ms : List MemAnswer}

/-- A finalised operation leaves the endpoints as they were before its START (R206). -/
theorem State.withMessage_finalised (hidle : s.activity e = .idle) :
    (s.withMessage e x d ms).endpoints.modify e (fun p => { p with activity := .idle }) =
      s.endpoints := by
  refine (State.modify_modify_of_idle hidle (k := id) fun p hp => ?_).trans (List.modify_id ..)
  rw [← hp]
  rfl

/-- The answer to the message takes its tag out again. -/
theorem State.withMessage_filter (hfresh : ∀ t ∈ s.outstanding, t.ep ≠ e) :
    (s.withMessage e x d ms).outstanding.filter (fun y => !y.hasTag .net .localTag e) =
      s.outstanding := filter_hasTag_append hfresh (by simp [Txn.hasTag])

/-- An endpoint in transmit mode refuses a message for its mode, so its own operation does not
change the verdict (R241). -/
theorem State.withMessage_arrivalRefusal (hmode : (s.reg e .mode).value = 0) :
    (s.withMessage e x d ms).arrivalRefusal f = s.arrivalRefusal f := by
  refine State.arrivalRefusal_congr rfl (fun g => s.setActivity_reg ..) fun hreceive => ?_
  refine (s.setActivity_activity ..).trans (if_neg ?_)
  rintro ⟨rfl, -⟩
  simp [hmode] at hreceive

end

/-- Settles O25: the START is accepted, its read is answered, and the receive chain of the own core
accepts or refuses the message. -/
theorem selfMessageInAtomicMode : Obligations.SelfMessageInAtomicMode := by
  rintro s e off f hm hv hshape he hread hmode hidle hpos hmax hfresh _ _ _ d _ ms rfl rfl rfl hcore
    hf hms hlength rfl
  have hl : e < s.endpoints.length := hshape ▸ he
  have hcapture := capture_of_readable (hread .messageAddr (by simp))
    (hread .messageSize (by simp)) (hread .targetCore (by simp)) (hread .targetEndpoint (by simp))
  rw [exec_startOperation_of_lt he, startOn_eq_txAccept (hread _ (by simp)) hmode hidle
    (hread _ (by simp)) hpos hmax, txAccept_atomic hm hv hl hfresh hcapture,
    memAnswered_of_gives (by exact hms), txReadDone_withRead hm hl hfresh, if_pos hlength]
  generalize hx : (⟨(s.reg e .messageAddr).value, (s.reg e .messageSize).value,
    (s.reg e .targetCore).value, (s.reg e .targetEndpoint).value⟩ : TxCtx) = x
  have hown : OwnMessage (s.withMessage e x d ms) e f x := by
    subst hx
    exact ⟨hm, hv, (Update.setActivity e _).keeps_shaped hshape, State.withRead_activity hl _,
      ⟨_, List.mem_append_right _ (List.mem_singleton_self _), by simp [Txn.hasTag]⟩, hpos, hmax,
      hcore, hf⟩
  have hverdict (r : Option ErrCode) (h : s.arrivalRefusal f = r) :
      (s.withMessage e x d ms).arrivalRefusal f = r :=
    (State.withMessage_arrivalRefusal hmode).trans h
  have hreg (g : Field) : (s.withMessage e x d ms).reg f g = s.reg f g := s.setActivity_reg ..
  have hreadable (g : Field) (h : s.readable f g = true) :
      (s.withMessage e x d ms).readable f g = true := by
    rw [State.readable, hreg]
    exact h
  refine ⟨fun hrefusal hfreshReceiver hready => ⟨fun ms2 hms2 => ?_, fun hsilent => ?_⟩,
    fun k hrefusal hready hring => ?_⟩
  · have hne := hown.ne (hverdict _ hrefusal)
    refine (hown.netAnswer_given (hverdict _ hrefusal) (hreadable _ (hready _ (by simp)))
      (fun g hg => hreadable g (hready g (by revert hg; cases g <;> decide))) hms2 d rfl).trans ?_
    simp only [State.withMessage_filter hfresh, filter_hasTag_of_ep_ne hfreshReceiver,
      State.received]
    rw [List.modify_modify_ne _ _ _ hne.symm, State.withMessage_finalised hidle]
    simp only [hreg, State.ring]
    subst hx
    simp only [State.withMessage, List.append_assoc]
    rfl
  · have hne := hown.ne (hverdict _ hrefusal)
    refine (hown.netAnswer_silent (hverdict _ hrefusal)
      (fun g hg => hreadable g (hready g (by revert hg; cases g <;> decide))) hsilent d).trans ?_
    have hother : (s.withMessage e x d ms).dropWrite f = s.withMessage e x d ms := by
      rw [State.dropWrite, filter_hasTag_of_ep_ne]
      exact List.forall_mem_append.2 ⟨hfreshReceiver, List.forall_mem_singleton.2 hne⟩
    rw [hother]
    simp only [State.withWrite, State.dropMemAnswer, hreg]
    subst hx
    simp only [State.withMessage, List.append_assoc]
    rfl
  · refine (hown.netAnswer_refused (hverdict _ hrefusal) (fun h => hreadable _ (hready h))
      (fun h => (hring h).imp (hreadable _) (hreadable _)) d).trans ?_
    simp only [State.withMessage_filter hfresh, State.withMessage_finalised hidle]
    subst hx
    rfl

end Sys2Proof.Machine

namespace Sys2Proof.Machine

/-! ### The checks of an arriving message (R241 to R249) -/

/-- Settles O42: the rejection of the kind check, which comes before every other. -/
theorem nonMessageUnsupported : Obligations.NonMessageUnsupported := fun _ _ _ => rfl

/-- The length field of a message's header (R112, R246). -/
def headerLength (data : Bytes) : Nat := (data.getD 2 0).toNat + 256 * (data.getD 3 0).toNat

/-- What is captured of an accepted message (R43, R246). -/
def contextOf (data : Bytes) (reply : Reply) : RxCtx where
  srcCore := (data.getD 0 0).toNat
  srcEp := (data.getD 1 0).toNat
  length := headerLength data
  payload := data.drop 4
  reply := reply

/-- Fewer bytes than a header has are no message (R246). -/
theorem splitMessage_of_lt {data : Bytes} (h : data.length < 4) : splitMessage data = none := by
  unfold splitMessage
  split
  · simp only [List.length_cons] at h
    omega
  · rfl

/-- A message of a header's length or more splits into its header fields and its payload (R246). -/
theorem splitMessage_of_le {data : Bytes} (h : 4 ≤ data.length) :
    splitMessage data = some ((data.getD 0 0).toNat, (data.getD 1 0).toNat, headerLength data,
      data.drop 4) := by
  match data with
  | _ :: _ :: _ :: _ :: _ => rfl

section
variable {s : State} {f : Nat} {data : Bytes}

/-- The checks of a message past those of range, mode and state, in their order (R241, R244,
R247). -/
theorem rxMessage_eq_checks (s : State) (f : Nat) (data : Bytes) (reply : Reply) :
    rxMessage f data.length data reply s =
      if data.length < 4 then .next (rxReject reply .malformed f s)
      else if headerLength data = 0 ∨ headerLength data ≠ data.length - 4 then
        .next (rxReject reply .malformed f s)
      else if s.cfg.maxMessageSize < data.length then .next (rxReject reply .sizeLimit f s)
      else
        andThen (needReg f .bufferMessageCount s) fun occ =>
        andThen (needReg f .bufferSize s) fun cap =>
        if ringFull occ cap then .next (rxReject reply .bufferFull f s)
        else rxAccept f (contextOf data reply) s := by
  unfold rxMessage
  obtain hshort | hlong := Nat.lt_or_ge data.length 4
  · rw [splitMessage_of_lt hshort, if_pos hshort]
  · have hlength : headerLength data + Config.headerSize ≠ data.length ↔
        headerLength data ≠ data.length - 4 := by
      rw [Config.headerSize]
      omega
    rw [splitMessage_of_le hlong, if_neg (not_lt.2 hlong)]
    simp only [hlength, contextOf]

/-- The first check of an arriving message that fails, of those before the occupancy check
(R241). -/
def State.earlyRefusal (s : State) (f : Nat) (data : Bytes) : Option ErrCode :=
  if s.cfg.endpointCount ≤ f then some .epOutOfRange
  else if (s.reg f .mode).value = 0 then some .notReceive
  else if (s.reg f .mode).value ≠ 1 then some .invalidMode
  else if s.activity f ≠ .idle then some .epBusy
  else if data.length < 4 then some .malformed
  else if headerLength data = 0 ∨ headerLength data ≠ data.length - 4 then some .malformed
  else if s.cfg.maxMessageSize < data.length then some .sizeLimit
  else none

/-- The arriving message is refused with this code, by an early check or for want of room, where the
registers of the occupancy check can be read (R241, R247). -/
def State.refuses (s : State) (f : Nat) (data : Bytes) (k : ErrCode) : Prop :=
  s.earlyRefusal f data = some k ∨
    (s.earlyRefusal f data = none ∧ k = .bufferFull ∧
      s.readable f .bufferMessageCount = true ∧ s.readable f .bufferSize = true ∧
      (s.reg f .bufferSize).value ≤ (s.reg f .bufferMessageCount).value)

/-- An arrival past the early checks comes to the occupancy check (R241, R247). -/
theorem rxArrive_of_no_earlyRefusal {addr : Nat} (hf : s.cfg.netEpOf addr = f)
    (hmode : f < s.cfg.endpointCount → s.readable f .mode = true)
    (h : s.earlyRefusal f data = none) (reply : Reply) :
    rxArrive addr data.length data reply s =
      andThen (needReg f .bufferMessageCount s) fun occ =>
      andThen (needReg f .bufferSize s) fun cap =>
      if ringFull occ cap then .next (rxReject reply .bufferFull f s)
      else rxAccept f (contextOf data reply) s := by
  unfold State.earlyRefusal at h
  split_ifs at h with hrange htransmit hinvalid hbusy hshort hmalformed hsize
  rw [rxArrive_of_readable hf (not_le.1 hrange) (hmode (not_le.1 hrange)), if_neg htransmit,
    if_neg hinvalid, if_neg hbusy, rxMessage_eq_checks, if_neg hshort, if_neg hmalformed,
    if_neg hsize]

/-- An arrival that fails an early check is rejected with its code (R241). -/
theorem rxArrive_of_earlyRefusal {addr : Nat} (hf : s.cfg.netEpOf addr = f)
    (hmode : f < s.cfg.endpointCount → s.readable f .mode = true) {k : ErrCode}
    (h : s.earlyRefusal f data = some k) (reply : Reply) :
    rxArrive addr data.length data reply s = .next (rxReject reply k f s) := by
  unfold State.earlyRefusal at h
  obtain hle | hlt := le_or_gt s.cfg.endpointCount f
  · rw [if_pos hle] at h
    obtain rfl := Option.some.inj h
    subst hf
    exact if_pos hle
  · rw [if_neg (not_le.2 hlt)] at h
    rw [rxArrive_of_readable hf hlt (hmode hlt), rxMessage_eq_checks]
    split_ifs at h ⊢ <;> rw [Option.some.inj h]

/-- A refused arrival is rejected with the code of the check (R241, R249). -/
theorem rxArrive_of_refuses {addr : Nat} (hf : s.cfg.netEpOf addr = f)
    (hmode : f < s.cfg.endpointCount → s.readable f .mode = true) {k : ErrCode}
    (h : s.refuses f data k) (reply : Reply) :
    rxArrive addr data.length data reply s = .next (rxReject reply k f s) := by
  obtain hearly | ⟨hnone, rfl, hcount, hsize, hfull⟩ := h
  · exact rxArrive_of_earlyRefusal hf hmode hearly reply
  · rw [rxArrive_of_no_earlyRefusal hf hmode hnone, needReg_of_readable hcount, andThen_next,
      needReg_of_readable hsize, andThen_next, if_pos (by simpa [ringFull] using hfull)]

/-- A message is handled by RX_ARRIVE (R240). -/
theorem exec_evRxMsg (addr : Nat) (data : Bytes) (reply : Reply) (s : State) :
    exec (.evRxMsg addr data.length data reply) s = rxArrive addr data.length data reply s :=
  if_pos rfl

end

/-- Settles O39: whichever check refuses the message, the rejection is one answer and one report. -/
theorem arrivalRejections : Obligations.ArrivalRejections := by
  rintro s addr _ data reply rfl _ rfl hmode _ rfl k hk
  exact (exec_evRxMsg ..).trans (rxArrive_of_refuses rfl hmode hk reply)

/-! ### Acceptance in timed mode (R246, R248) -/

/-- An accepted message in timed mode: Receiving, and RX_ISSUE_WRITE pending (R248). -/
def State.arrivalAccepted (s : State) (f : Nat) (c : RxCtx) : State :=
  { s.setActivity f (.receiving c) with pending := s.pending ++ [.rxIssueWrite f] }

/-- RX_ACCEPT in timed mode (R248). -/
theorem rxAccept_timed {s : State} (hm : s.cfg.atomicMode = false) (f : Nat) (c : RxCtx) :
    rxAccept f c s = .next (s.arrivalAccepted f c) := sched_timed (by exact hm) _ _

/-- Settles O40: every check is passed, and the context is the parts of the message. -/
theorem arrivalAcceptedTimed : Obligations.ArrivalAcceptedTimed := by
  rintro s addr sc se lo hi payload reply _ hm rfl hlength hpos hmax f hf hr hread hmode hidle hroom
  have hsize : (sc :: se :: lo :: hi :: payload).length = 4 + (lo.toNat + 256 * hi.toNat) := by
    simp only [List.length_cons]
    omega
  refine (if_pos hsize).trans ((rxArrive_eq_rxAccept hf.symm hr hread hmode hidle hroom rfl hpos
    (Nat.add_comm ..) hmax reply).trans (rxAccept_timed hm f _))

/-! ### What the receive path leaves alone (R256)

`State.unreceived` erases every part of the state that the receive path of endpoint `f` may write.
Its frame is then one equation, which each of its operations keeps. -/

/-- The state without the parts that the receive path of endpoint `f` may write. -/
def State.unreceived (s : State) (f : Nat) : State :=
  { s with
    endpoints := s.endpoints.modify f fun _ => Endpoint.reset
    outstanding := []
    pending := []
    mem := []
    memOut := []
    netInOut := []
    reports := []
    memAnswers := [] }

section
variable {s t : State} {f : Nat}

/-- Endpoint `f` is one of the parts erased. -/
@[simp] theorem State.modifyEp_unreceived (s : State) (f : Nat) (g : Endpoint → Endpoint) :
    (s.modifyEp f g).unreceived f = s.unreceived f := by
  simp only [State.unreceived, State.modifyEp, modify_modify, Function.comp_def]

/-- The other endpoints are not erased. -/
theorem State.ep_eq_of_unreceived (h : t.unreceived f = s.unreceived f) {x : Nat} (hx : x ≠ f) :
    t.ep x = s.ep x := by
  have hkept (u : State) : (u.unreceived f).ep x = u.ep x :=
    (u.modifyEp_ep f x fun _ => Endpoint.reset).trans (if_neg fun hc => hx hc.1)
  rw [← hkept t, h, hkept s]

theorem fcAdvanceWrite_unreceived {x : State × NetStatus} (h : fcAdvanceWrite f s = .next x) :
    x.1.unreceived f = s.unreceived f := by
  obtain ⟨-, rfl⟩ | ⟨-, rfl⟩ := fcAdvanceWrite_eq_next h
  · rfl
  · exact (State.modifyEp_unreceived ..).trans (State.modifyEp_unreceived ..)

theorem rxFinish_unreceived (h : rxFinish f s = .next t) : t.unreceived f = s.unreceived f := by
  unfold rxFinish at h
  split at h
  · obtain ⟨r, hr, ⟨⟩⟩ := andThen_eq_next.1 h
    exact (State.modifyEp_unreceived ..).trans (fcAdvanceWrite_unreceived hr)
  · cases h

theorem rxWriteDone_unreceived (h : rxWriteDone f s = .next t) :
    t.unreceived f = s.unreceived f := by
  obtain ⟨u, hu, h⟩ := andThen_eq_next.1 h
  obtain ⟨-, rfl⟩ := takeTag_eq_next hu
  split at h
  · obtain ⟨-, h⟩ | ⟨-, rfl⟩ := sched_eq_next h
    · exact (rxFinish_unreceived h :)
    · rfl
  · cases h
    rfl

theorem rxWriteResponse_unreceived {data : Bytes} (h : rxWriteResponse f data s = .next t) :
    t.unreceived f = s.unreceived f := by
  unfold rxWriteResponse at h
  split at h
  · exact rxWriteDone_unreceived h
  · cases h

theorem rxIssueWrite_unreceived (h : rxIssueWrite f s = .next t) :
    t.unreceived f = s.unreceived f := by
  unfold rxIssueWrite at h
  split at h
  · obtain ⟨wptr, -, h⟩ := andThen_eq_next.1 h
    dsimp only at h
    split at h
    · obtain ⟨data, ms, -, h⟩ | ⟨-, rfl⟩ := memAnswered_eq_next h
      · exact (rxWriteResponse_unreceived h :)
      · rfl
    · cases h
      rfl
  · cases h

theorem rxAccept_unreceived {c : RxCtx} (h : rxAccept f c s = .next t) :
    t.unreceived f = s.unreceived f := by
  obtain ⟨-, h⟩ | ⟨-, rfl⟩ := sched_eq_next h
  · exact (rxIssueWrite_unreceived h).trans (State.modifyEp_unreceived ..)
  · exact s.modifyEp_unreceived f _

/-- What the checks of a message can answer: it is rejected or goes on to RX_ACCEPT (R241). -/
theorem rxMessage_eq_next {size : Nat} {data : Bytes} {reply : Reply}
    (h : rxMessage f size data reply s = .next t) :
    (∃ k, t = rxReject reply k f s) ∨ ∃ c, rxAccept f c s = .next t := by
  unfold rxMessage at h
  split at h
  · cases h
    exact .inl ⟨_, rfl⟩
  · split_ifs at h
    · cases h
      exact .inl ⟨_, rfl⟩
    · cases h
      exact .inl ⟨_, rfl⟩
    · obtain ⟨occ, -, h⟩ := andThen_eq_next.1 h
      obtain ⟨cap, -, h⟩ := andThen_eq_next.1 h
      split at h
      · cases h
        exact .inl ⟨_, rfl⟩
      · exact .inr ⟨_, h⟩

/-- What RX_ARRIVE can answer: the message is rejected or goes on to RX_ACCEPT (R241). -/
theorem rxArrive_eq_next {addr size : Nat} {data : Bytes} {reply : Reply}
    (h : rxArrive addr size data reply s = .next t) :
    (∃ k, t = rxReject reply k (s.cfg.netEpOf addr) s) ∨
      ∃ c, rxAccept (s.cfg.netEpOf addr) c s = .next t := by
  unfold rxArrive at h
  dsimp only at h
  split at h
  · cases h
    exact .inl ⟨_, rfl⟩
  · obtain ⟨m, -, h⟩ := andThen_eq_next.1 h
    split_ifs at h
    · cases h
      exact .inl ⟨_, rfl⟩
    · cases h
      exact .inl ⟨_, rfl⟩
    · cases h
      exact .inl ⟨_, rfl⟩
    · exact rxMessage_eq_next h

theorem execEvRxMsg_unreceived {addr size : Nat} {data : Bytes} {reply : Reply}
    (h : execEvRxMsg addr size data reply s = .next t) :
    t.unreceived (s.cfg.netEpOf addr) = s.unreceived (s.cfg.netEpOf addr) := by
  unfold execEvRxMsg at h
  split at h
  · obtain ⟨k, rfl⟩ | ⟨c, h⟩ := rxArrive_eq_next h
    · rfl
    · exact rxAccept_unreceived h
  · cases h

end

/-- Settles O46: the globals and the other endpoints are what `State.unreceived` keeps, and the
registers of the addressed endpoint are those no operation writes but INCREMENT_READ_POINTER
(O47). -/
theorem receiveFrame : Obligations.ReceiveFrame := by
  intro s t i f hi h
  have hframe : t.unreceived f = s.unreceived f := by
    obtain ⟨addr, size, data, reply, rfl, rfl⟩ | ⟨addr, reply, rfl, rfl⟩ | rfl := hi
    · exact execEvRxMsg_unreceived h
    · cases h
      rfl
    · exact rxWriteDone_unreceived h
  have hadvance : ∀ e off, i ≠ .incrementReadPointer e off := by
    rintro e off rfl
    simp at hi
  obtain ⟨hcfg, -, hconfig, hread, -⟩ := neverWrittenRegisters s t i h
  refine ⟨hcfg, (congrArg State.command hframe :), (congrArg State.status hframe :),
    (congrArg State.netOut hframe :), (congrArg State.accessOut hframe :),
    (congrArg State.netAnswers hframe :), fun x => State.ep_eq_of_unreceived hframe,
    fun g hg => ?_⟩
  by_cases hptr : g = .bufferReadPtr
  · exact hptr ▸ hread hadvance f
  · exact hconfig f g (by revert hg hptr; cases g <;> decide)

/-! ### An arrival run alone in the two modes (R254, R350, R354) -/

section
variable {s : State} {f : Nat}

/-- An arrival that is not refused passes every check (R241). -/
theorem State.accepts_of_not_refuses {data : Bytes} (h : ¬∃ k, s.refuses f data k)
    (hcount : s.readable f .bufferMessageCount = true)
    (hsize : s.readable f .bufferSize = true) :
    s.earlyRefusal f data = none ∧
      (s.reg f .bufferMessageCount).value < (s.reg f .bufferSize).value := by
  have hnone : s.earlyRefusal f data = none :=
    Option.eq_none_iff_forall_ne_some.2 fun k hk => h ⟨k, .inl hk⟩
  exact ⟨hnone, not_le.1 fun hfull => h ⟨_, .inr ⟨hnone, rfl, hcount, hsize, hfull⟩⟩⟩

/-- A message past the early checks is for an Idle endpoint in range (R241). -/
theorem State.idle_of_no_earlyRefusal {data : Bytes} (h : s.earlyRefusal f data = none) :
    f < s.cfg.endpointCount ∧ s.activity f = .idle := by
  unfold State.earlyRefusal at h
  split_ifs at h with hrange htransmit hinvalid hbusy
  exact ⟨not_le.1 hrange, not_not.1 hbusy⟩

/-- An arrival past the early checks, with room, is accepted (R247, R248). -/
theorem rxArrive_of_room {addr : Nat} {data : Bytes} (hf : s.cfg.netEpOf addr = f)
    (hread : ∀ g ∈ [Field.mode, .bufferMessageCount, .bufferSize], s.readable f g = true)
    (h : s.earlyRefusal f data = none)
    (hroom : (s.reg f .bufferMessageCount).value < (s.reg f .bufferSize).value) (reply : Reply) :
    rxArrive addr data.length data reply s = rxAccept f (contextOf data reply) s := by
  rw [rxArrive_of_no_earlyRefusal hf (fun _ => hread _ (by simp)) h,
    needReg_of_readable (hread _ (by simp)), andThen_next, needReg_of_readable (hread _ (by simp)),
    andThen_next, if_neg (by simpa [ringFull] using hroom)]

/-- A step at a message runs RX_ARRIVE (R240). -/
theorem step_of_message (hv : s.cfg.valid = true) {x : NetIn} (hkind : x.kind = .write)
    (hlength : x.data.length = x.size) (rest : List Event) :
    step { s with timeline := .netIn x :: rest } =
      rxArrive x.addr x.data.length x.data x.reply { s with timeline := rest } := by
  have hdecode : decode s.cfg (.netIn x) = .ok (.evRxMsg x.addr x.data.length x.data x.reply) := by
    simp only [decode, decodeNetIn, hlength, hkind, if_true]
  rw [step_of_event (by exact hv) rfl, ← exec_evRxMsg]
  exact atPort_of_decode (by exact hdecode)

/-- The run of a continuation when none is pending is an idle step (log 20). -/
theorem step_of_run_none (hv : s.cfg.valid = true) (hp : s.pending = []) (rest : List Event) :
    step { s with timeline := .run 0 :: rest } = .next { s with timeline := rest } := by
  rw [step_of_event (by exact hv) rfl, handleEvent, runPending, hp]
  rfl

/-- The run of the one continuation that is pending (R352). -/
theorem step_of_run_only (hv : s.cfg.valid = true) (hp : s.pending = []) (k : Continuation)
    (rest : List Event) :
    step { s with timeline := .run 0 :: rest, pending := s.pending ++ [k] } =
      continueWith k { s with timeline := rest } := by
  rw [step_of_run (c := k) (by exact hv) rfl (by simp [hp])]
  simp only [hp, List.nil_append, List.eraseIdx_cons_zero]

/-- The events that carry a reception of endpoint `f` on in timed mode: RX_ISSUE_WRITE, the memory's
answer, and RX_FINISH (R353; log 7). -/
abbrev receptionEvents (f : Nat) : List Event := [.run 0, .memServe .forwardedTag f, .run 0]

/-- With nothing pending and nothing of endpoint `f` outstanding they are idle steps (log 20). -/
theorem receptionEvents_idle (hv : s.cfg.valid = true) (hp : s.pending = [])
    (hfresh : ∀ t ∈ s.outstanding, t.ep ≠ f) :
    repeated step 3 { s with timeline := receptionEvents f } = .next { s with timeline := [] } := by
  have hserve : step { s with timeline := [.memServe .forwardedTag f, .run 0] } =
      .next { s with timeline := [.run 0] } := by
    rw [step_of_event (by exact hv) rfl]
    exact memServe_none fun t ht => by simp [Txn.hasTag, hfresh t ht]
  simp only [repeated, receptionEvents, step_of_run_none hv hp, hserve, andThen_next]

/-- In timed mode RX_ISSUE_WRITE of an accepted message issues and stores the write (R250). -/
theorem rxIssueWrite_timed (hm : s.cfg.atomicMode = false) (hl : f < s.endpoints.length)
    (hr : s.readable f .bufferWritePtr = true) (hfresh : ∀ t ∈ s.outstanding, t.ep ≠ f)
    (c : RxCtx) :
    rxIssueWrite f (s.setActivity f (.receiving c)) = .next (s.withWrite f c) := by
  have hactivity : (s.setActivity f (.receiving c)).activity f = .receiving c :=
    s.withWrite_activity hl c
  have hreadable : (s.setActivity f (.receiving c)).readable f .bufferWritePtr = true := by
    rw [State.readable, State.setActivity_reg]
    exact hr
  refine (rxIssueWrite_of_receiving hactivity hreadable rfl).trans
    ((if_neg (by simp [hm])).trans ?_)
  rw [State.setActivity_reg, State.withWrite, ← filter_hasTag_of_ep_ne hfresh .mem .forwardedTag]
  rfl

/-- An accepted message with its write stored and completed (R250, R251). -/
def State.writeCompleted (s : State) (f : Nat) (c : RxCtx) : State :=
  { s.withWrite f c with outstanding := s.outstanding }

/-- In timed mode the memory's answer completes the write of an accepted message, and RX_FINISH is
pending (R251, R352). -/
theorem memServe_withWrite (hm : s.cfg.atomicMode = false) (hl : f < s.endpoints.length)
    (hfresh : ∀ t ∈ s.outstanding, t.ep ≠ f) (c : RxCtx) :
    memServe .forwardedTag f (s.withWrite f c) =
      .next { s.writeCompleted f c with pending := s.pending ++ [.rxFinish f] } := by
  have hwrite : ∃ g, g.hasTag .mem .forwardedTag f = true ∧
      (s.withWrite f c).outstanding = s.outstanding ++ [g] :=
    ⟨_, by simp [Txn.hasTag], rfl⟩
  obtain ⟨g, htag, hout⟩ := hwrite
  have hmem : g ∈ (s.withWrite f c).outstanding := by simp [hout]
  obtain ⟨g', hfind⟩ := Option.isSome_iff_exists.1
    (List.find?_isSome (p := fun t : Txn => t.hasTag .mem .forwardedTag f).2 ⟨g, hmem, htag⟩)
  rw [memServe_write hfind, exec_evRxWriteDone,
    rxWriteDone_timed (by exact hm) (State.withWrite_activity hl c) hmem htag, hout,
    filter_hasTag_append hfresh htag]
  rfl

/-- RX_FINISH of an accepted message with room leaves it stored and acknowledged (R252). -/
theorem rxFinish_writeCompleted (hl : f < s.endpoints.length) (hidle : s.activity f = .idle)
    (hread : s.ringReadable f .bufferWritePtr)
    (hroom : (s.reg f .bufferMessageCount).value < (s.reg f .bufferSize).value)
    (hfresh : ∀ t ∈ s.outstanding, t.ep ≠ f) (c : RxCtx) :
    rxFinish f (s.writeCompleted f c) = .next (s.received f c s.memAnswers) := by
  have hring : ringRegs f .bufferWritePtr (s.writeCompleted f c) =
      .next (s.ring f .bufferWritePtr) :=
    (ringRegs_congr (s := s) (by rfl) (State.withWrite_reg c)).trans
      (ringRegs_of_ringReadable hread)
  refine (rxFinish_of_room (by exact State.withWrite_activity hl c) hring hroom).trans ?_
  simp only [State.writeCompleted, State.withWrite, State.received, filter_hasTag_of_ep_ne hfresh]
  rw [State.modify_modify_of_idle hidle]
  rintro p hp
  rw [← hp]
  rfl

/-- They leave an accepted message stored and acknowledged (R250 to R252). -/
theorem receptionEvents_received (hv : s.cfg.valid = true) (hm : s.cfg.atomicMode = false)
    (hp : s.pending = []) (hl : f < s.endpoints.length) (hidle : s.activity f = .idle)
    (hread : s.ringReadable f .bufferWritePtr) (hfresh : ∀ t ∈ s.outstanding, t.ep ≠ f)
    (hroom : (s.reg f .bufferMessageCount).value < (s.reg f .bufferSize).value) (c : RxCtx) :
    repeated step 3 { s.arrivalAccepted f c with timeline := receptionEvents f } =
      .next { s.received f c s.memAnswers with timeline := [] } := by
  have hissue : step { s.arrivalAccepted f c with timeline := receptionEvents f } =
      .next { s.withWrite f c with timeline := [.memServe .forwardedTag f, .run 0] } :=
    (step_of_run_only (s := s.setActivity f (.receiving c)) hv hp (.rxIssueWrite f) _).trans
      (rxIssueWrite_timed (s := { s with timeline := [.memServe .forwardedTag f, .run 0] }) hm hl
        (hread _ (by simp)) hfresh c)
  have hserve : step { s.withWrite f c with timeline := [.memServe .forwardedTag f, .run 0] } =
      .next { s.writeCompleted f c with
        timeline := [.run 0]
        pending := s.pending ++ [.rxFinish f] } := by
    rw [step_of_event (by exact hv) rfl]
    exact memServe_withWrite (s := { s with timeline := [.run 0] }) hm hl hfresh c
  have hfinish : step { s.writeCompleted f c with
      timeline := [.run 0]
      pending := s.pending ++ [.rxFinish f] } =
      .next { s.received f c s.memAnswers with timeline := [] } :=
    (step_of_run_only (s := s.writeCompleted f c) hv hp (.rxFinish f) _).trans
      (rxFinish_writeCompleted (s := { s with timeline := [] }) hl hidle hread hroom hfresh c)
  simp only [repeated, hissue, hserve, hfinish, andThen_next]

/-- What a write of bytes leaves depends on the width of addresses alone (R76). -/
theorem writeBytes_congr {c d : Config} (h : c.regWidth = d.regWidth) (m : Memory) (a : Nat)
    (bs : Bytes) : writeBytes c m a bs = writeBytes d m a bs := by
  induction bs generalizing m a with
  | nil => rfl
  | cons b bs ih => rw [writeBytes, writeBytes, ih, byteAddr, byteAddr, h]

/-- Four steps of timed mode at a message: its arrival, and the events that carry it on. -/
theorem runSteps_message (hv : s.cfg.valid = true) {x : NetIn} (hkind : x.kind = .write)
    (hlength : x.data.length = x.size) (f : Nat) :
    runSteps 4 { s with timeline := .netIn x :: receptionEvents f } =
      andThen (rxArrive x.addr x.data.length x.data x.reply
        { s with timeline := receptionEvents f }) (repeated step 3) :=
  congrArg (andThen · (repeated step 3)) (step_of_message hv hkind hlength _)

/-- The same state in atomic mode, with no answer of the memory listed, so that it answers from its
bytes (R350; log 26). -/
def State.inAtomicMode (s : State) : State :=
  { s with
    cfg := { s.cfg with atomicMode := true }
    memAnswers := [] }

end

/-- Settles O59: a refused message is rejected by its first step in either mode, and an accepted one
ends stored and acknowledged. -/
theorem receiveModesAgree : Obligations.ReceiveModesAgree := by
  intro s x f hv hshape hm hp hf hkind hlength hread hfresh
  have htimed := runSteps_message hv hkind hlength f
  have hatomic := step_of_message (s := s.inAtomicMode) hv hkind hlength []
  have hmode : s.readable f .mode = true := hread _ (by simp)
  by_cases hrefused : ∃ k, s.refuses f x.data k
  · obtain ⟨k, hk⟩ := hrefused
    have hrejectTimed := rxArrive_of_refuses (s := { s with timeline := receptionEvents f })
      hf.symm (fun _ => hmode) hk x.reply
    have hrejectAtomic := rxArrive_of_refuses (s := { s.inAtomicMode with timeline := [] })
      hf.symm (fun _ => hmode) hk x.reply
    exact ⟨_, _, htimed.trans (andThen_eq_next.2 ⟨_, hrejectTimed,
        receptionEvents_idle (s := rxReject x.reply k f s) hv hp hfresh⟩),
      hatomic.trans hrejectAtomic, rfl, rfl, rfl, rfl, rfl, rfl, rfl, rfl, rfl, rfl, rfl⟩
  · obtain ⟨hnone, hroom⟩ := State.accepts_of_not_refuses hrefused (hread _ (by simp))
      (hread _ (by simp))
    obtain ⟨hr, hidle⟩ := State.idle_of_no_earlyRefusal hnone
    have hl : f < s.endpoints.length := hshape ▸ hr
    have hchecks : ∀ g ∈ [Field.mode, .bufferMessageCount, .bufferSize], s.readable f g = true :=
      fun g hg => hread g (by revert hg; cases g <;> decide)
    have hring : s.ringReadable f .bufferWritePtr :=
      fun g hg => hread g (by revert hg; cases g <;> decide)
    have hacceptTimed := rxArrive_of_room (s := { s with timeline := receptionEvents f })
      hf.symm hchecks hnone hroom x.reply
    have hacceptAtomic := rxArrive_of_room (s := { s.inAtomicMode with timeline := [] })
      hf.symm hchecks hnone hroom x.reply
    have hgiven := rxAccept_given (s := { s.inAtomicMode with timeline := [] }) (ms := []) rfl hl
      hidle hring hroom ⟨rfl, .inl ⟨rfl, rfl⟩⟩ (contextOf x.data x.reply)
    exact ⟨_, _, htimed.trans (andThen_eq_next.2
        ⟨_, hacceptTimed.trans (rxAccept_timed (by exact hm) f _),
          receptionEvents_received hv hm hp hl hidle hring hfresh hroom _⟩),
      hatomic.trans (hacceptAtomic.trans hgiven),
      rfl, rfl, rfl, rfl, rfl, writeBytes_congr (c := s.cfg) (d := s.inAtomicMode.cfg) rfl ..,
      rfl, rfl, rfl, rfl, rfl⟩

end Sys2Proof.Machine

namespace Sys2Proof.Machine

/-! ### Completions of an endpoint in another state (R306) -/

section
variable {s : State} {e : Nat} {g : Txn}

/-- The answer to a message of an endpoint that is not Transmitting is reported (R306). -/
theorem txResponded_spurious (hg : g ∈ s.outstanding) (htag : g.hasTag .net .localTag e = true)
    (he : ∀ x, s.activity e ≠ .transmitting x) (st : NetStatus) :
    txResponded e st s = .next { s with
      outstanding := s.outstanding.filter fun y => !y.hasTag .net .localTag e
      reports := s.reports ++ [⟨.tx, .spuriousCompletion, e, 0⟩] } := by
  rw [txResponded, takeTag_of_mem hg htag, andThen_next]
  split
  · next x hx => exact absurd hx (he x)
  · rfl

/-- The completion of a read of an endpoint that is not Transmitting is reported (R306). -/
theorem txReadDone_spurious (hg : g ∈ s.outstanding) (htag : g.hasTag .mem .localTag e = true)
    (he : ∀ x, s.activity e ≠ .transmitting x) (d : Bytes) :
    txReadDone e d s = .next { s with
      outstanding := s.outstanding.filter fun y => !y.hasTag .mem .localTag e
      reports := s.reports ++ [⟨.tx, .spuriousCompletion, e, 0⟩] } := by
  rw [txReadDone, takeTag_of_mem hg htag, andThen_next]
  split
  · next x hx => exact absurd hx (he x)
  · rfl

/-- The completion of a write of an endpoint that is not Receiving is reported (R306). -/
theorem rxWriteDone_spurious (hg : g ∈ s.outstanding) (htag : g.hasTag .mem .forwardedTag e = true)
    (he : ∀ c, s.activity e ≠ .receiving c) :
    rxWriteDone e s = .next { s with
      outstanding := s.outstanding.filter fun y => !y.hasTag .mem .forwardedTag e
      reports := s.reports ++ [⟨.rx, .spuriousCompletion, e, 0⟩] } := by
  rw [rxWriteDone, takeTag_of_mem hg htag, andThen_next]
  split
  · next c hc => exact absurd hc (he c)
  · rfl

end

/-- Settles O38: the tag is taken out, and the endpoint's state leaves the report alone. -/
theorem spuriousCompletionReported : Obligations.SpuriousCompletionReported :=
  fun _ _ d k _ hg => ⟨fun he => ⟨fun htag => txReadDone_spurious hg htag he d,
    fun htag => ⟨txResponded_spurious hg htag he .ack,
      txResponded_spurious hg htag he (.reject k)⟩⟩,
    fun he htag => rxWriteDone_spurious hg htag he⟩

/-! ### What an arrival comes to (R241) -/

/-- The ways an arriving message for endpoint `f` goes on: a check rejects it, it is accepted by an
Idle endpoint that exists, or it stops on a register never written. -/
inductive Arrival (f : Nat) (reply : Reply) (s : State) : Ans State → Prop where
  | rejected (k : ErrCode) (hk : k ≠ .spuriousCompletion) :
      Arrival f reply s (.next (rxReject reply k f s))
  | accepted (c : RxCtx) (hf : f < s.cfg.endpointCount) (hidle : s.activity f = .idle) :
      Arrival f reply s (rxAccept f c s)
  | stopped (hu : s.cfg.unwrittenFaults = true) (r : Fault) : Arrival f reply s (.fault r)

section
variable {s : State} {f : Nat} {reply : Reply}

/-- A needed register gives its value, or stops the arrival (R55). -/
theorem needReg_arrival {e : Nat} {r : Field} {k : Nat → Ans State}
    (h : Arrival f reply s (k (s.reg e r).value)) :
    Arrival f reply s (andThen (needReg e r s) k) := by
  cases hread : s.readable e r with
  | true => rwa [needReg_of_readable hread, andThen_next]
  | false =>
    rw [needReg_of_not_readable hread, andThen_fault]
    exact .stopped (by simp_all [State.readable]) _

theorem rxMessage_arrival (hf : f < s.cfg.endpointCount) (hidle : s.activity f = .idle)
    (size : Nat) (data : Bytes) : Arrival f reply s (rxMessage f size data reply s) := by
  unfold rxMessage
  split
  · exact .rejected _ nofun
  · split_ifs
    · exact .rejected _ nofun
    · exact .rejected _ nofun
    · refine needReg_arrival (needReg_arrival ?_)
      split
      · exact .rejected _ nofun
      · exact .accepted _ hf hidle

theorem rxArrive_arrival (addr size : Nat) (data : Bytes) (reply : Reply) (s : State) :
    Arrival (s.cfg.netEpOf addr) reply s (rxArrive addr size data reply s) := by
  unfold rxArrive
  extract_lets f
  split
  · exact .rejected _ nofun
  · next hf =>
    refine needReg_arrival ?_
    split_ifs with _ _ hidle
    · exact .rejected _ nofun
    · exact .rejected _ nofun
    · exact .rejected _ nofun
    · exact rxMessage_arrival (not_le.1 hf) (by simpa [State.isIdle] using hidle) ..

/-- An arrival leaves the operation state of an endpoint that is not Idle alone (R245, R256). -/
theorem Arrival.activity_eq {x : Ans State} {t : State} (h : Arrival f reply s x)
    (ht : x = .next t) {e : Nat} (he : s.activity e ≠ .idle) : t.activity e = s.activity e := by
  cases h with
  | rejected =>
    cases ht
    rfl
  | accepted c hf hidle =>
    have hne : e ≠ f := fun h => he (h ▸ hidle)
    exact congrArg Endpoint.activity (State.ep_eq_of_unreceived (rxAccept_unreceived ht) hne)
  | stopped => cases ht

end

/-! ### The reports of a step (R302, R306)

Reports only grow. `S` is what has to hold for one of the new ones to be a spurious completion: a
lemma for every `S` says that there is none. -/

/-- Only the codes that R302 gives a detail carry one. -/
def Report.detailNamed (r : Report) : Prop :=
  r.code ≠ .invalidOpcode → r.code ≠ .remoteRejected → r.detail = 0

/-- `m` is `l` with at most `n` more reports, a spurious completion only where `S`. -/
def Adds (S : Prop) (n : Nat) (l m : List Report) : Prop :=
  ∃ new, m = l ++ new ∧ new.length ≤ n ∧
    ∀ r ∈ new, (r.code = .spuriousCompletion → S) ∧ r.detailNamed

/-- Where an outcome is a next state, its reports are `l` and those `Adds` allows. -/
structure Reports (S : Prop) (n : Nat) (x : Ans State) (l : List Report) : Prop where
  adds : ∀ t, x = .next t → Adds S n l t.reports

section
variable {S : Prop} {i j n : Nat} {l m : List Report} {s t : State}

theorem adds_self : Adds S n l l := ⟨[], (List.append_nil l).symm, Nat.zero_le n, nofun⟩

theorem adds_one {r : Report} (hS : r.code = .spuriousCompletion → S) (hr : r.detailNamed) :
    Adds S 1 l (l ++ [r]) := ⟨[r], rfl, le_rfl, List.forall_mem_singleton.2 ⟨hS, hr⟩⟩

theorem Adds.trans {k : List Report} (h : Adds S i l m) (hk : Adds S j m k) :
    Adds S (i + j) l k := by
  obtain ⟨a, rfl, ha, hra⟩ := h
  obtain ⟨b, rfl, hb, hrb⟩ := hk
  exact ⟨a ++ b, List.append_assoc .., List.length_append ▸ Nat.add_le_add ha hb,
    List.forall_mem_append.2 ⟨hra, hrb⟩⟩

theorem Adds.mono (h : Adds S i l m) (hij : i ≤ j) : Adds S j l m := by
  obtain ⟨new, hm, hlength, hnew⟩ := h
  exact ⟨new, hm, hlength.trans hij, hnew⟩

theorem reports_next (h : Adds S n l t.reports) : Reports S n (.next t) l := by
  refine ⟨?_⟩
  rintro _ ⟨⟩
  exact h

@[simp] theorem reports_fault (r : Fault) : Reports S n (.fault r) l := ⟨nofun⟩

theorem Reports.mono {x : Ans State} (h : Reports S i x l) (hij : i ≤ j) : Reports S j x l :=
  ⟨fun t ht => (h.adds t ht).mono hij⟩

/-- A value read first reports nothing. -/
theorem reports_andThen {α : Type} {x : Ans α} {g : α → Ans State}
    (h : ∀ a, x = .next a → Reports S n (g a) l) : Reports S n (andThen x g) l := by
  refine ⟨fun t ht => ?_⟩
  obtain ⟨a, ha, hg⟩ := andThen_eq_next.1 ht
  exact (h a ha).adds t hg

/-- Reports, then the reports of what follows. -/
theorem Reports.andThen {x : Ans State} {g : State → Ans State} (hx : Reports S i x l)
    (hg : ∀ t, x = .next t → Reports S j (g t) t.reports) : Reports S (i + j) (andThen x g) l :=
  reports_andThen fun a ha => ⟨fun t ht => (hx.adds a ha).trans ((hg a ha).adds t ht)⟩

theorem raise_reports {o : Origin} {k : ErrCode} {e d : Nat} (hS : k = .spuriousCompletion → S)
    (hd : k ≠ .invalidOpcode → k ≠ .remoteRejected → d = 0) :
    Reports S 1 (.next (s.raise o k e d)) s.reports := reports_next (adds_one hS hd)

theorem sched_reports {k : Continuation} {now : State → Ans State}
    (h : Reports S n (now s) s.reports) : Reports S n (sched k now s) s.reports := by
  refine ⟨fun t ht => ?_⟩
  obtain ⟨-, ht⟩ | ⟨-, rfl⟩ := sched_eq_next ht
  · exact h.adds t ht
  · exact adds_self

/-- After a request: the memory's part in atomic mode reports what handling its answer does. -/
theorem request_reports (d : Disc) (e : Nat) (bytes : Bytes) {done : Bytes → State → Ans State}
    (h : ∀ data ms, Reports S n (done data { s with memAnswers := ms }) s.reports) :
    Reports S n (if s.cfg.atomicMode then memAnswered d e bytes done s else .next s) s.reports := by
  split
  · refine ⟨fun t ht => ?_⟩
    obtain ⟨data, ms, -, ht⟩ | ⟨-, rfl⟩ := memAnswered_eq_next ht
    · exact (h data ms).adds t ht
    · exact adds_self
  · exact reports_next adds_self

/-- Taking a tag out changes no operation state. -/
theorem takeTag_activity {p : Port} {d : Disc} {e : Nat} (h : takeTag p d e s = .next t) (x : Nat) :
    t.activity x = s.activity x := by
  obtain ⟨-, rfl⟩ := takeTag_eq_next h
  rfl

/-- Taking a tag out reports nothing. -/
theorem takeTag_reports {p : Port} {d : Disc} {e : Nat} {g : State → Ans State}
    (h : ∀ t, takeTag p d e s = .next t → Reports S n (g t) t.reports) :
    Reports S n (andThen (takeTag p d e s) g) s.reports := by
  refine reports_andThen fun t ht => ?_
  have hg := h t ht
  obtain ⟨-, rfl⟩ := takeTag_eq_next ht
  exact hg

/-! The receive sequencer. -/

theorem rxReject_reports {k : ErrCode} (hk : k ≠ .spuriousCompletion) (reply : Reply) (f : Nat) :
    Reports S 1 (.next (rxReject reply k f s)) s.reports :=
  raise_reports (s := s.respondNet reply (.reject k)) (fun h => absurd h hk) fun _ _ => rfl

theorem rxFinish_reports (f : Nat) (s : State) : Reports S 1 (rxFinish f s) s.reports := by
  unfold rxFinish
  split
  · refine reports_andThen fun r hr => reports_next ?_
    obtain ⟨-, rfl⟩ | ⟨-, rfl⟩ := fcAdvanceWrite_eq_next hr
    · exact adds_one nofun fun _ _ => rfl
    · exact adds_self
  · exact reports_fault _

theorem rxWriteDone_reports {f : Nat} (h : ∀ t, takeTag .mem .forwardedTag f s = .next t →
    (∃ c, t.activity f = .receiving c) ∨ S) : Reports S 1 (rxWriteDone f s) s.reports := by
  refine takeTag_reports fun t ht => ?_
  split
  · exact sched_reports (rxFinish_reports f t)
  · next hne =>
    exact raise_reports (fun _ => (h t ht).resolve_left fun ⟨c, hc⟩ => hne c hc) fun _ _ => rfl

theorem rxIssueWrite_reports (f : Nat) (s : State) : Reports S 1 (rxIssueWrite f s) s.reports := by
  unfold rxIssueWrite
  split
  · next c hc =>
    refine reports_andThen fun wptr _ =>
      request_reports (s := (s.issueMem _).writeMem wptr _) _ _ _ fun data ms => ?_
    unfold rxWriteResponse
    split
    · exact rxWriteDone_reports fun t ht => .inl ⟨c, (takeTag_activity ht f).trans hc⟩
    · exact reports_fault _
  · exact reports_fault _

theorem rxAccept_reports (f : Nat) (c : RxCtx) (s : State) :
    Reports S 1 (rxAccept f c s) s.reports :=
  sched_reports (s := s.setActivity f (.receiving c)) (rxIssueWrite_reports f _)

theorem Arrival.reports {f : Nat} {reply : Reply} {x : Ans State} (h : Arrival f reply s x) :
    Reports S 1 x s.reports := by
  cases h with
  | rejected k hk => exact rxReject_reports hk reply f
  | accepted c => exact rxAccept_reports f c s
  | stopped => exact reports_fault _

/-! The transmit sequencer. -/

theorem txFinal_reports (e : Nat) (st : NetStatus) (s : State) :
    Reports S 1 (.next (txFinal e st s)) s.reports := by
  refine reports_next ?_
  rw [txFinal_eq]
  cases st with
  | ack => exact ⟨[], rfl, Nat.zero_le 1, nofun⟩
  | reject k => exact adds_one nofun fun _ h => absurd rfl h

theorem txResponded_reports {e : Nat} (st : NetStatus)
    (h : ∀ t, takeTag .net .localTag e s = .next t → (∃ x, t.activity e = .transmitting x) ∨ S) :
    Reports S 1 (txResponded e st s) s.reports := by
  refine takeTag_reports fun t ht => ?_
  split
  · exact sched_reports (txFinal_reports e st t)
  · next hne =>
    exact raise_reports (fun _ => (h t ht).resolve_left fun ⟨x, hx⟩ => hne x hx) fun _ _ => rfl

/-- The network's part: the arrival at the unit's own core and then its answer report once each. -/
theorem netAnswer_reports {e : Nat} {x : TxCtx} (hx : s.activity e = .transmitting x)
    (r : NetReq) : Reports S 2 (netAnswer e r s) s.reports := by
  have hanswer (t : State) (st : NetStatus) (h : t.activity e = s.activity e) :
      Reports S 1 (txResponded e st t) t.reports :=
    txResponded_reports st fun u hu => .inl ⟨x, (takeTag_activity hu e).trans (h.trans hx)⟩
  unfold netAnswer
  split_ifs
  · have harrival := rxArrive_arrival r.addr r.size r.data (.own e) s
    refine harrival.reports.andThen (j := 1) fun t ht => ?_
    split
    · exact hanswer t _ (harrival.activity_eq ht (by simp [hx]))
    · exact reports_next adds_self
  · split
    · next st rest _ => exact (hanswer { s with netAnswers := rest } st rfl).mono one_le_two
    · exact reports_next adds_self
  · exact reports_next adds_self

theorem txSend_reports (e : Nat) (msg : Bytes) (s : State) :
    Reports S 2 (txSend e msg s) s.reports := by
  unfold txSend
  split
  · next x hx => exact netAnswer_reports (s := s.issueNet (sendReq s.cfg e x msg)) hx _
  · exact reports_fault _

theorem txReadDone_reports {e : Nat} (d : Bytes)
    (h : ∀ t, takeTag .mem .localTag e s = .next t → (∃ x, t.activity e = .transmitting x) ∨ S) :
    Reports S 2 (txReadDone e d s) s.reports := by
  refine takeTag_reports fun t ht => ?_
  split
  · split
    · exact sched_reports (txSend_reports e _ t)
    · exact reports_fault _
  · next hne =>
    exact (raise_reports (fun _ => (h t ht).resolve_left fun ⟨x, hx⟩ => hne x hx)
      fun _ _ => rfl).mono one_le_two

theorem txIssueRead_reports (e : Nat) (s : State) : Reports S 2 (txIssueRead e s) s.reports := by
  unfold txIssueRead
  split
  · next x hx => exact request_reports (s := s.issueMem _) _ _ _ fun data ms =>
      txReadDone_reports data fun t ht => .inl ⟨x, (takeTag_activity ht e).trans hx⟩
  · exact reports_fault _

theorem txAccept_reports (e : Nat) (s : State) : Reports S 2 (txAccept e s) s.reports :=
  reports_andThen fun x _ =>
    sched_reports (s := (s.setStatus statusBusy).setActivity e (.transmitting x))
      (txIssueRead_reports e _)

/-! The executor, the operations and the continuations. -/

theorem startOn_reports (e : Nat) (s : State) : Reports S 2 (startOn e s) s.reports := by
  have hraise (k : ErrCode) (hk : k ≠ .spuriousCompletion) :
      Reports S 2 (.next (s.raise .exec k e 0)) s.reports :=
    (raise_reports (fun h => absurd h hk) fun _ _ => rfl).mono one_le_two
  refine reports_andThen fun m _ => ?_
  split_ifs
  · exact hraise _ nofun
  · exact hraise _ nofun
  · exact hraise _ nofun
  · refine reports_andThen fun len _ => ?_
    split
    · exact hraise _ nofun
    · exact txAccept_reports e s

theorem fcAdvanceRead_reports (e : Nat) (s : State) :
    Reports S 2 (fcAdvanceRead e s) s.reports := by
  refine ⟨fun t h => ?_⟩
  obtain ⟨-, rfl⟩ | ⟨-, rfl⟩ := fcAdvanceRead_eq_next h
  · exact (adds_one nofun fun _ _ => rfl).mono one_le_two
  · exact adds_self

theorem inRange_reports {e : Nat} {k : Ans State} (h : Reports S 2 k s.reports) :
    Reports S 2 (inRange e s k) s.reports := by
  unfold inRange
  split
  · exact (raise_reports nofun fun _ _ => rfl).mono one_le_two
  · exact h

/-- An invalid opcode is reported with its value (R160). -/
theorem exec_invalidOpcode_reports (op e off : Nat) (s : State) :
    Reports S 2 (exec (.invalidOpcode op e off) s) s.reports :=
  inRange_reports ((raise_reports nofun fun h => absurd rfl h).mono one_le_two)

/-- A command word reports no spurious completion (R151). -/
theorem exec_commandOf_reports (op e off : Nat) (s : State) :
    Reports S 2 (exec (commandOf op e off) s) s.reports := by
  match op with
  | 0 => exact inRange_reports (reports_next adds_self)
  | 1 => exact inRange_reports (startOn_reports e s)
  | 2 => exact inRange_reports (fcAdvanceRead_reports e s)
  | op + 3 => exact exec_invalidOpcode_reports (op + 3) e off s

theorem executeAndRespond_reports (s : State) :
    Reports S 2 (executeAndRespond s) s.reports :=
  (exec_commandOf_reports _ _ _ s).andThen (j := 0) fun _ _ => reports_next adds_self

/-- No continuation reports a spurious completion: it looks at the state of its endpoint before the
answers that come within its step. -/
theorem continueWith_reports (k : Continuation) (s : State) :
    Reports S 2 (continueWith k s) s.reports := by
  cases k with
  | execute => exact executeAndRespond_reports s
  | respond r => exact reports_next adds_self
  | txIssueRead e => exact txIssueRead_reports e s
  | txSend e msg => exact txSend_reports e msg s
  | txFinal e st => exact (txFinal_reports e st s).mono one_le_two
  | rxIssueWrite f => exact (rxIssueWrite_reports f s).mono one_le_two
  | rxFinish f => exact (rxFinish_reports f s).mono one_le_two

/-- Of the operations only those of a response report a spurious completion, and from a tracked
state the endpoint of an outstanding tag is in the matching state (R38, R40, R306). -/
theorem exec_reports (h : s.tracked ∨ S) (i : Instr) : Reports S 2 (exec i s) s.reports := by
  cases i with
  | idle e off => exact exec_commandOf_reports 0 e off s
  | startOperation e off => exact exec_commandOf_reports 1 e off s
  | incrementReadPointer e off => exact exec_commandOf_reports 2 e off s
  | invalidOpcode op e off => exact exec_invalidOpcode_reports op e off s
  | evTxReadDone e d => exact txReadDone_reports d fun _ ht => h.imp_left fun hs =>
      (hs.takeTag ht).transmitting
  | evTxAck e => exact (txResponded_reports .ack fun _ ht => h.imp_left fun hs =>
      (hs.takeTag ht).transmitting).mono one_le_two
  | evTxNack e k => exact (txResponded_reports (.reject k) fun _ ht => h.imp_left fun hs =>
      (hs.takeTag ht).transmitting).mono one_le_two
  | evRxMsg addr size data reply =>
    change Reports S 2 (execEvRxMsg addr size data reply s) s.reports
    unfold execEvRxMsg
    split
    · exact (rxArrive_arrival ..).reports.mono one_le_two
    · exact reports_fault _
  | evRxUnsupported addr reply =>
    exact Reports.mono (rxReject_reports (k := .unsupported) nofun reply _) one_le_two
  | evRxWriteDone f => exact (rxWriteDone_reports fun _ ht => h.imp_left fun hs =>
      (hs.takeTag ht).receiving).mono one_le_two

theorem storeReg_reports (n : RegName) (v : Nat) (s : State) :
    (storeReg n v s).reports = s.reports := by
  cases n <;> rfl

theorem StepCase.reports {next : Option Event} (h : StepCase next s t) (hs : s.tracked ∨ S) :
    Adds S 2 s.reports t.reports := by
  cases h with
  | idle | cpuWrite => exact adds_self
  | write ev n v k _ _ _ h =>
    rw [← storeReg_reports n v s]
    exact (sched_reports (continueWith_reports k _)).adds t h
  | read r m h =>
    exact (sched_reports (s := { s with freeCount := m }) (continueWith_reports _ _)).adds t h
  | port i m h => exact (exec_reports (s := { s with freeCount := m }) hs i).adds t h
  | run k c _ h =>
    exact (continueWith_reports c { s with pending := s.pending.eraseIdx k }).adds t h

theorem step_reports (h : step s = .next t) (hs : s.tracked ∨ S) : Adds S 2 s.reports t.reports :=
  (step_cases h).reports hs

end

/-- Settles O55: a completion is that of an outstanding tag, and from a tracked state its endpoint
is in the state its handler expects. -/
theorem spuriousCompletionUnreachable : Obligations.SpuriousCompletionUnreachable := by
  intro s t _ hs h
  obtain ⟨new, hreports, -, hnew⟩ := step_reports (S := False) h (.inl hs)
  exact ⟨new, hreports, fun r hr => (hnew r hr).1⟩

/-- Settles O56: every operation appends its reports, two only where a message to the unit's own
core is rejected and answered within the step. -/
theorem reportsOnlyAppended : Obligations.ReportsOnlyAppended := by
  intro s t h
  obtain ⟨new, hreports, hlength, hnew⟩ := step_reports (S := True) h (.inr trivial)
  exact ⟨new, hreports, hlength, fun r hr => (hnew r hr).2⟩

end Sys2Proof.Machine

namespace Sys2Proof.Machine

/-! ### Where faults come from (R303, R307)

With the reset values readable and a memory that answers from its bytes or not at all, an operation
whose endpoint is in the matching state never faults. -/

/-- No register read faults (log 3), and in atomic mode the memory answers from its bytes or not at
all (log 26). -/
structure State.calm (s : State) : Prop where
  lenient : s.cfg.unwrittenFaults = false
  answers : ∀ d failed, .response d failed ∉ s.memAnswers

section
variable {s t : State} {e f : Nat}

theorem noFault_next (s : State) : NoFault (.next s) := nofun

theorem noFault_refused (r : Refusal) : NoFault (.refused r) := nofun

theorem noFault_andThen {x : Ans State} {g : State → Ans State} (hx : NoFault x)
    (hg : ∀ t, x = .next t → NoFault (g t)) : NoFault (andThen x g) := fun r h => by
  obtain h | ⟨t, ht, h⟩ := andThen_eq_fault.1 h
  · exact hx r h
  · exact hg t ht r h

theorem sched_noFault {k : Continuation} {now : State → Ans State} (h : NoFault (now s)) :
    NoFault (sched k now s) := by
  cases hm : s.cfg.atomicMode with
  | true => rwa [sched_atomic hm]
  | false =>
    rw [sched_timed hm]
    exact noFault_next _

/-- With the reset values readable every register is (log 3). -/
theorem State.readable_of_lenient (hu : s.cfg.unwrittenFaults = false) (e : Nat) (r : Field) :
    s.readable e r = true := by
  simp [State.readable, hu]

theorem State.calm.dropMemAnswer (hc : s.calm) : s.dropMemAnswer.calm :=
  ⟨hc.lenient, fun d failed h => hc.answers d failed (List.mem_of_mem_tail h)⟩

/-- After a request of a calm state: in atomic mode its bytes are handled, or nothing happens. -/
theorem request_noFault (hc : s.calm) (d : Disc) (e : Nat) (bytes : Bytes)
    {done : Bytes → State → Ans State} (h : NoFault (done bytes s.dropMemAnswer)) :
    NoFault (if s.cfg.atomicMode then memAnswered d e bytes done s else .next s) := by
  split
  · unfold memAnswered
    split
    · exact h
    · next data failed hm =>
      refine absurd ?_ (hc.answers data failed)
      revert hm
      cases s.memAnswers <;> simp +contextual
    · exact noFault_next _
  · exact noFault_next _

/-! The receive sequencer. -/

theorem rxFinish_noFault (hu : s.cfg.unwrittenFaults = false) {c : RxCtx}
    (hc : s.activity f = .receiving c) : NoFault (rxFinish f s) := by
  have hread : s.ringReadable f .bufferWritePtr := fun r _ => State.readable_of_lenient hu f r
  obtain ⟨hroom, hfull⟩ := rxFinish_of_ringReadable s hc hread
  obtain hlt | hle := lt_or_ge (s.reg f .bufferMessageCount).value (s.reg f .bufferSize).value
  · rw [hroom hlt]
    exact noFault_next _
  · rw [hfull hle]
    exact noFault_next _

theorem rxWriteDone_noFault (hu : s.cfg.unwrittenFaults = false) {g : Txn}
    (hg : g ∈ s.outstanding) (htag : g.hasTag .mem .forwardedTag f = true) :
    NoFault (rxWriteDone f s) := by
  rw [rxWriteDone, takeTag_of_mem hg htag, andThen_next]
  split
  · next c hc => exact sched_noFault (rxFinish_noFault hu hc)
  · exact noFault_next _

/-- The request just issued is outstanding under its tag (R40). -/
theorem State.issueMem_tag (s : State) (r : MemReq) :
    ∃ g ∈ (s.issueMem r).outstanding, g.hasTag .mem r.disc r.ep = true :=
  ⟨_, List.mem_append_right _ (List.mem_singleton_self _), by simp [Txn.hasTag]⟩

theorem State.issueNet_tag (s : State) (r : NetReq) :
    ∃ g ∈ (s.issueNet r).outstanding, g.hasTag .net r.disc r.ep = true :=
  ⟨_, List.mem_append_right _ (List.mem_singleton_self _), by simp [Txn.hasTag]⟩

theorem rxIssueWrite_noFault (hc : s.calm) {c : RxCtx} (hactivity : s.activity f = .receiving c) :
    NoFault (rxIssueWrite f s) := by
  rw [rxIssueWrite_of_receiving hactivity (State.readable_of_lenient hc.lenient f _) rfl]
  obtain ⟨g, hg, htag⟩ := s.issueMem_tag
    ⟨(s.reg f .bufferWritePtr).value, c.length, .write, c.payload, .forwardedTag, f⟩
  exact request_noFault (s := (s.issueMem _).writeMem _ c.payload) ⟨hc.lenient, hc.answers⟩ _ _ _
    (rxWriteDone_noFault (by exact hc.lenient) hg htag)

theorem rxAccept_noFault (hc : s.calm) (hl : f < s.endpoints.length) (c : RxCtx) :
    NoFault (rxAccept f c s) :=
  sched_noFault (rxIssueWrite_noFault ⟨hc.lenient, hc.answers⟩
    ((s.setActivity_activity f f _).trans (if_pos ⟨rfl, hl⟩)))

theorem Arrival.noFault {reply : Reply} {x : Ans State} (h : Arrival f reply s x) (hc : s.calm)
    (hshape : s.shaped) : NoFault x := by
  cases h with
  | rejected => exact noFault_next _
  | accepted c hf => exact rxAccept_noFault hc (hshape ▸ hf) c
  | stopped hu => exact absurd (hc.lenient.symm.trans hu) nofun

/-! The receive sequencer takes no transaction of the network port out. -/

/-- The outstanding transactions of the network port. -/
def State.netTxns (s : State) : List Txn := s.outstanding.filter fun g => decide (g.port = .net)

/-- A transaction of the network port stays while those of the port do. -/
theorem State.mem_of_netTxns_eq (h : t.netTxns = s.netTxns) {g : Txn} (hg : g ∈ s.outstanding)
    (hport : g.port = .net) : g ∈ t.outstanding := by
  have hnet : g ∈ s.netTxns := List.mem_filter.2 ⟨hg, by simpa using hport⟩
  rw [← h] at hnet
  exact List.mem_of_mem_filter hnet

/-- A tag of the memory port is none of the network port's. -/
theorem filter_net_filter_mem (l : List Txn) (d : Disc) (e : Nat) :
    (l.filter fun g => !g.hasTag .mem d e).filter (fun g => decide (g.port = .net)) =
      l.filter fun g => decide (g.port = .net) := by
  rw [List.filter_filter]
  refine List.filter_congr fun g _ => ?_
  cases hp : g.port <;> simp [Txn.hasTag, hp]

theorem rxFinish_netTxns (h : rxFinish f s = .next t) : t.netTxns = s.netTxns := by
  unfold rxFinish at h
  split at h
  · obtain ⟨r, hr, ⟨⟩⟩ := andThen_eq_next.1 h
    obtain ⟨-, rfl⟩ | ⟨-, rfl⟩ := fcAdvanceWrite_eq_next hr <;> rfl
  · cases h

theorem rxWriteDone_netTxns (h : rxWriteDone f s = .next t) : t.netTxns = s.netTxns := by
  obtain ⟨u, hu, h⟩ := andThen_eq_next.1 h
  obtain ⟨-, rfl⟩ := takeTag_eq_next hu
  refine Eq.trans ?_ (filter_net_filter_mem s.outstanding .forwardedTag f)
  split at h
  · obtain ⟨-, h⟩ | ⟨-, rfl⟩ := sched_eq_next h
    · exact (rxFinish_netTxns h :)
    · rfl
  · cases h
    rfl

theorem State.issueMem_netTxns (s : State) (r : MemReq) : (s.issueMem r).netTxns = s.netTxns := by
  rw [State.netTxns, State.issueMem_outstanding, List.filter_append, filter_net_filter_mem]
  exact List.append_nil _

theorem rxIssueWrite_netTxns (h : rxIssueWrite f s = .next t) : t.netTxns = s.netTxns := by
  unfold rxIssueWrite at h
  split at h
  · next c _ =>
    obtain ⟨wptr, -, h⟩ := andThen_eq_next.1 h
    refine Eq.trans ?_
      (s.issueMem_netTxns ⟨wptr, c.length, .write, c.payload, .forwardedTag, f⟩)
    dsimp only at h
    split at h
    · obtain ⟨data, ms, -, h⟩ | ⟨-, rfl⟩ := memAnswered_eq_next h
      · unfold rxWriteResponse at h
        split at h
        · exact (rxWriteDone_netTxns h :)
        · cases h
      · rfl
    · cases h
      rfl
  · cases h

theorem Arrival.netTxns_eq {reply : Reply} {x : Ans State} (h : Arrival f reply s x)
    (ht : x = .next t) : t.netTxns = s.netTxns := by
  cases h with
  | rejected =>
    cases ht
    rfl
  | accepted =>
    obtain ⟨-, h⟩ | ⟨-, rfl⟩ := sched_eq_next ht
    · exact (rxIssueWrite_netTxns h :)
    · rfl
  | stopped => cases ht

/-! The transmit sequencer. -/

theorem txResponded_noFault {g : Txn} (hg : g ∈ s.outstanding)
    (htag : g.hasTag .net .localTag e = true) (st : NetStatus) : NoFault (txResponded e st s) := by
  rw [txResponded, takeTag_of_mem hg htag, andThen_next]
  split
  · exact sched_noFault (noFault_next _)
  · exact noFault_next _

/-- The network's part does not fault: the tag of the request is still outstanding when the answer
comes back. -/
theorem netAnswer_noFault (hc : s.calm) (hshape : s.shaped) {g : Txn} (hg : g ∈ s.outstanding)
    (htag : g.hasTag .net .localTag e = true) (r : NetReq) : NoFault (netAnswer e r s) := by
  have hport : g.port = .net := by
    simp only [Txn.hasTag, Bool.and_eq_true, decide_eq_true_eq] at htag
    exact htag.1.1
  unfold netAnswer
  split_ifs
  · have harrival := rxArrive_arrival r.addr r.size r.data (.own e) s
    refine noFault_andThen (harrival.noFault hc hshape) fun t ht => ?_
    split
    · exact txResponded_noFault
        (State.mem_of_netTxns_eq (harrival.netTxns_eq ht) hg hport) htag _
    · exact noFault_next _
  · split
    · exact txResponded_noFault (by exact hg) htag _
    · exact noFault_next _
  · exact noFault_next _

theorem txSend_noFault (hc : s.calm) (hshape : s.shaped) {x : TxCtx}
    (hx : s.activity e = .transmitting x) (msg : Bytes) : NoFault (txSend e msg s) := by
  rw [txSend_of_transmitting hx]
  obtain ⟨g, hg, htag⟩ := s.issueNet_tag (sendReq s.cfg e x msg)
  exact netAnswer_noFault (by exact ⟨hc.lenient, hc.answers⟩) (by exact hshape) hg htag _

theorem txReadDone_noFault (hc : s.calm) (hshape : s.shaped) {x : TxCtx}
    (hx : s.activity e = .transmitting x) {g : Txn} (hg : g ∈ s.outstanding)
    (htag : g.hasTag .mem .localTag e = true) {d : Bytes} (hd : d.length = x.length) :
    NoFault (txReadDone e d s) := by
  rw [txReadDone_of_transmitting hg htag hx, if_pos hd]
  exact sched_noFault
    (txSend_noFault (by exact ⟨hc.lenient, hc.answers⟩) (by exact hshape) (by exact hx) _)

/-- The memory reads as many bytes as it is asked for (R76). -/
theorem length_readBytes (c : Config) (m : Memory) (a n : Nat) :
    (readBytes c m a n).length = n := by
  rw [readBytes, List.length_map, List.length_range]

theorem txIssueRead_noFault (hc : s.calm) (hshape : s.shaped) {x : TxCtx}
    (hx : s.activity e = .transmitting x) : NoFault (txIssueRead e s) := by
  rw [txIssueRead, hx]
  obtain ⟨g, hg, htag⟩ := s.issueMem_tag ⟨x.msgAddr, x.length, .read, [], .localTag, e⟩
  have hissued : (s.issueMem ⟨x.msgAddr, x.length, .read, [], .localTag, e⟩).calm :=
    ⟨hc.lenient, hc.answers⟩
  exact request_noFault hissued _ _ _ (txReadDone_noFault hissued.dropMemAnswer hshape hx hg htag
    (length_readBytes ..))

theorem txAccept_noFault (hc : s.calm) (hshape : s.shaped) (hl : e < s.endpoints.length) :
    NoFault (txAccept e s) := by
  have hread := State.readable_of_lenient hc.lenient e
  rw [txAccept, capture_of_readable (hread _) (hread _) (hread _) (hread _), andThen_next]
  exact sched_noFault (txIssueRead_noFault ⟨hc.lenient, hc.answers⟩
    ((Update.setActivity e _).keeps_shaped hshape)
    ((State.setActivity_activity _ e e _).trans (if_pos ⟨rfl, hl⟩)))

/-! The executor and the continuations. -/

theorem startOn_noFault (hc : s.calm) (hshape : s.shaped) (he : e < s.cfg.endpointCount) :
    NoFault (startOn e s) := by
  have hread := State.readable_of_lenient hc.lenient e
  rw [startOn_of_readable (hread _), needReg_of_readable (hread _), andThen_next]
  split_ifs
  · exact noFault_next _
  · exact noFault_next _
  · exact noFault_next _
  · exact noFault_next _
  · exact txAccept_noFault hc hshape (hshape ▸ he)

theorem fcAdvanceRead_noFault (hc : s.calm) : NoFault (fcAdvanceRead e s) := by
  have hread := State.readable_of_lenient hc.lenient e
  rw [fcAdvanceRead, ringRegs_of_readable (hread _) (hread _) (hread _) (hread _), andThen_next]
  split
  · exact noFault_next _
  · exact noFault_next _

/-- A command word never faults (R151). -/
theorem exec_commandOf_noFault (hc : s.calm) (hshape : s.shaped) (op e off : Nat) :
    NoFault (exec (commandOf op e off) s) := by
  obtain he | he := le_or_gt s.cfg.endpointCount e
  · rw [exec_commandOf_of_le he]
    exact noFault_next _
  have hin (k : Ans State) (h : NoFault k) : NoFault (inRange e s k) :=
    (inRange_of_lt he k).symm ▸ h
  match op with
  | 0 => exact hin _ (noFault_next _)
  | 1 => exact hin _ (startOn_noFault hc hshape he)
  | 2 => exact hin _ (fcAdvanceRead_noFault hc)
  | _ + 3 => exact hin _ (noFault_next _)

theorem executeAndRespond_noFault (hc : s.calm) (hshape : s.shaped) :
    NoFault (executeAndRespond s) :=
  noFault_andThen (exec_commandOf_noFault hc hshape _ _ _) fun _ _ => noFault_next _

/-- A continuation with its token in hand finds its endpoint in the state it needs (R353). -/
theorem continueWith_noFault (hc : s.calm) (hshape : s.shaped) {k : Continuation}
    (hs : s.holding k.tokens) : NoFault (continueWith k s) := by
  cases k with
  | execute => exact executeAndRespond_noFault hc hshape
  | respond => exact noFault_next _
  | txIssueRead e =>
    obtain ⟨x, hx⟩ := State.holding.transmitting (by simpa using hs)
    exact txIssueRead_noFault hc hshape hx
  | txSend e msg =>
    obtain ⟨x, hx⟩ := State.holding.transmitting (by simpa using hs)
    exact txSend_noFault hc hshape hx msg
  | txFinal => exact noFault_next _
  | rxIssueWrite f =>
    obtain ⟨c, hreceiving⟩ := State.holding.receiving (by simpa using hs)
    exact rxIssueWrite_noFault hc hreceiving
  | rxFinish f =>
    obtain ⟨c, hreceiving⟩ := State.holding.receiving (by simpa using hs)
    exact rxFinish_noFault hc.lenient hreceiving

/-! The events that are not the fabrics'. -/

theorem State.calm.storeReg (hc : s.calm) (n : RegName) (v : Nat) : (storeReg n v s).calm := by
  cases n <;> exact ⟨hc.lenient, hc.answers⟩

theorem accessDone_noFault (r : AccessResp) (s : State) : NoFault (accessDone r s) :=
  sched_noFault (noFault_next _)

theorem regWrite_noFault (hc : s.calm) (hshape : s.shaped) (n : RegName) (v : Nat) :
    NoFault (regWrite n v s) := by
  unfold regWrite
  split_ifs
  · exact sched_noFault (executeAndRespond_noFault (hc.storeReg n v)
      ((storeReg_update n v s).keeps_shaped hshape))
  · exact accessDone_noFault _ _
  · exact noFault_refused _

theorem regRead_noFault (n : RegName) (s : State) : NoFault (regRead n s) := by
  unfold regRead
  split
  · cases n with
    | command => exact accessDone_noFault _ _
    | status => exact accessDone_noFault _ _
    | endpoint e f =>
      dsimp only
      split
      · exact accessDone_noFault _ _
      · exact accessDone_noFault _ _
  · exact noFault_refused _

theorem atExternal_noFault {a w : Nat} {access : RegName → Ans State}
    (h : ∀ n, NoFault (access n)) : NoFault (atExternal a w access s) := by
  unfold atExternal
  split
  · exact noFault_refused _
  · split
    · exact h _
    · exact noFault_refused _

/-- The memory serves a read with as many bytes as were requested (R76, R78). -/
theorem length_servedBytes (c : Config) (m : Memory) (k : Nat) (g : Txn) :
    (servedBytes c m k g).length = g.size := by
  unfold servedBytes
  split
  · rw [List.length_map, List.length_range]
  · exact length_readBytes ..

/-- The memory's answer from its bytes comes to an endpoint in the matching state, with the captured
length (R38, R40, R202). -/
theorem memServe_noFault (hc : s.calm) (hshape : s.shaped) (hs : s.tracked) (d : Disc) (e : Nat) :
    NoFault (memServe d e s) := by
  cases hfind : s.outstanding.find? (fun g => g.hasTag .mem d e) with
  | none =>
    rw [memServe, hfind]
    exact noFault_next _
  | some g =>
    have hg := List.mem_of_find?_eq_some hfind
    have htag : g.hasTag .mem d e = true :=
      List.find?_some (p := fun g : Txn => g.hasTag .mem d e) hfind
    cases d with
    | localTag =>
      obtain ⟨x, hx⟩ := (hs.takeTag (takeTag_of_mem hg htag)).transmitting
      obtain ⟨-, -, hsize⟩ := hs
      have htagged := htag
      simp only [Txn.hasTag, Bool.and_eq_true, decide_eq_true_eq] at htagged
      obtain ⟨⟨hport, hdisc⟩, rfl⟩ := htagged
      rw [memServe_read hfind]
      exact txReadDone_noFault (s := { s with freeCount := s.freeCount + g.size })
        ⟨hc.lenient, hc.answers⟩ hshape hx hg htag
        ((length_servedBytes ..).trans (hsize g hg hport hdisc x hx).symm)
    | forwardedTag =>
      rw [memServe_write hfind]
      exact rxWriteDone_noFault hc.lenient hg htag

theorem runPending_noFault (hc : s.calm) (hshape : s.shaped) (hs : s.tracked) (k : Nat) :
    NoFault (runPending k s) := by
  unfold runPending
  split
  · next c hk =>
    exact continueWith_noFault (by exact ⟨hc.lenient, hc.answers⟩) (by exact hshape)
      (hs.unschedule hk)
  · exact noFault_next _

theorem handleEvent_noFault (hc : s.calm) (hshape : s.shaped) (hs : s.tracked) {ev : Event}
    (hev : ev.fromFabric = false) : NoFault (handleEvent ev s) := by
  cases ev with
  | regWrite n v => exact regWrite_noFault hc hshape n v
  | regRead n => exact regRead_noFault n s
  | extWrite a w v => exact atExternal_noFault fun n => regWrite_noFault hc hshape n v
  | extRead a w => exact atExternal_noFault fun n => regRead_noFault n s
  | memServe d e => exact memServe_noFault hc hshape hs d e
  | cpuWrite => exact noFault_next _
  | run k => exact runPending_noFault hc hshape hs k
  | memResp | netResp | netIn => cases hev

end

/-- Settles O57: the invariant has every continuation and every answer of the memory come to an
endpoint in the matching state. -/
theorem faultsComeFromFabric : Obligations.FaultsComeFromFabric := by
  intro s hshape hs hu hfabric hanswers
  have hc : s.calm := ⟨hu, hanswers⟩
  by_cases hv : s.cfg.valid = true
  · cases ht : s.timeline with
    | nil =>
      rw [step_of_no_event hv ht]
      exact runPending_noFault hc hshape hs 0
    | cons ev rest =>
      rw [step_of_event hv ht]
      exact handleEvent_noFault (by exact ⟨hc.lenient, hc.answers⟩) (by exact hshape)
        (by exact hs) (hfabric ev rest ht)
  · rw [step_of_not_valid hv]
    exact noFault_refused _

end Sys2Proof.Machine

namespace Sys2Proof.Machine

/-! ### A transmit run alone in the two modes (R350, R354) -/

section
variable {s : State} {e : Nat} {x : TxCtx}

/-- A read that no CPU write has hit is served with memory's bytes (R46, R78). -/
theorem servedBytes_of_raced_nil {g : Txn} (h : g.raced = []) (c : Config) (m : Memory) (k : Nat) :
    servedBytes c m k g = readBytes c m g.addr g.size :=
  if_neg (by simp [Txn.overlapsWrite, h])

/-- The tag just added is the one that is found. -/
theorem find?_hasTag_append {l : List Txn} (h : ∀ t ∈ l, t.ep ≠ e) {p : Port} {d : Disc} {g : Txn}
    (hg : g.hasTag p d e = true) : (l ++ [g]).find? (fun t => t.hasTag p d e) = some g := by
  have hnone : l.find? (fun t => t.hasTag p d e) = none :=
    List.find?_eq_none.2 fun t ht => by simp [Txn.hasTag, h t ht]
  rw [List.find?_append, hnone, List.find?_singleton, if_pos hg]
  rfl

/-- The network's response to a message is TX_ACK or TX_NACK, by its status (R41, R116). -/
theorem atPort_netResp (e : Nat) (st : NetStatus) (s : State) :
    atPort (.netResp ⟨.localTag, e, st⟩) s = txResponded e st s := by
  cases st <;> rfl

/-- An accepted START: busy, and Transmitting with its context (R200). -/
def State.started (s : State) (e : Nat) (x : TxCtx) : State :=
  { s with
    status := 1
    endpoints := s.endpoints.modify e fun p => { p with activity := .transmitting x } }

/-- In timed mode TX_ISSUE_READ of an accepted START issues the read (R202). -/
theorem txIssueRead_started (hm : s.cfg.atomicMode = false) (hl : e < s.endpoints.length)
    (hfresh : ∀ t ∈ s.outstanding, t.ep ≠ e) :
    txIssueRead e (s.started e x) = .next (s.withRead e x) := by
  rw [txIssueRead_timed (by exact hm) (by exact State.withRead_activity hl x), State.withRead,
    ← filter_hasTag_of_ep_ne hfresh .mem .localTag]
  rfl

/-- An accepted START with its read served and done, which counts as many free values as bytes
(R203; log 7). -/
def State.readCompleted (s : State) (e : Nat) (x : TxCtx) : State :=
  { s.withRead e x with
    outstanding := s.outstanding
    freeCount := s.freeCount + x.length }

/-- The payload of a message: the bytes memory holds at its address (R202). -/
def State.txPayload (s : State) (x : TxCtx) : Bytes := readBytes s.cfg s.mem x.msgAddr x.length

/-- In timed mode the memory's answer completes the read of an accepted START, and TX_SEND is
pending (R203, R352). -/
theorem memServe_withRead (hm : s.cfg.atomicMode = false) (hl : e < s.endpoints.length)
    (hfresh : ∀ t ∈ s.outstanding, t.ep ≠ e) :
    memServe .localTag e (s.withRead e x) = .next { s.readCompleted e x with
      pending := s.pending ++ [.txSend e (messageOf s.cfg e x.length (s.txPayload x))] } := by
  have htag : (⟨.mem, .localTag, e, x.msgAddr, x.length, []⟩ : Txn).hasTag .mem .localTag e =
      true := by simp [Txn.hasTag]
  have hserve := memServe_read (s := s.withRead e x) (find?_hasTag_append hfresh htag)
  rw [servedBytes_of_raced_nil rfl] at hserve
  refine hserve.trans ((txReadDoneTimed _ e _ x _ (by exact hm)
    (List.mem_append_right _ (List.mem_singleton_self _)) htag
    (by exact State.withRead_activity hl x) (length_readBytes ..)).trans ?_)
  simp only [State.withRead]
  rw [filter_hasTag_append hfresh htag]
  rfl

/-- An accepted START with its message issued, in timed mode. -/
def State.messageIssued (s : State) (e : Nat) (x : TxCtx) : State :=
  { s.withMessage e x (s.txPayload x) s.memAnswers with freeCount := s.freeCount + x.length }

/-- In timed mode TX_SEND issues the message (R204). -/
theorem txSend_readCompleted (hm : s.cfg.atomicMode = false) (hl : e < s.endpoints.length)
    (hfresh : ∀ t ∈ s.outstanding, t.ep ≠ e) :
    txSend e (messageOf s.cfg e x.length (s.txPayload x)) (s.readCompleted e x) =
      .next (s.messageIssued e x) := by
  rw [txSend_of_transmitting (by exact State.withRead_activity hl x), netAnswer_timed (by exact hm),
    State.messageIssued, State.withMessage, ← filter_hasTag_of_ep_ne hfresh .net .localTag]
  rfl

/-- In timed mode the network's answer frees the tag, and TX_FINAL is pending (R206, R207, R352). -/
theorem txResponded_messageIssued (hm : s.cfg.atomicMode = false) (hl : e < s.endpoints.length)
    (hfresh : ∀ t ∈ s.outstanding, t.ep ≠ e) (st : NetStatus) :
    txResponded e st (s.messageIssued e x) = .next { s.messageIssued e x with
      outstanding := s.outstanding
      pending := s.pending ++ [.txFinal e st] } := by
  rw [txResponded_of_transmitting (List.mem_append_right _ (List.mem_singleton_self _))
    (by simp [Txn.hasTag]) (by exact State.withRead_activity hl x), sched_timed (by exact hm)]
  simp only [State.messageIssued, State.withMessage_filter hfresh]
  rfl

/-- A finished transmit: its read and its message were issued, a rejection is reported, and COMMAND
and STATUS are cleared (R202 to R207). -/
def State.transmitted (s : State) (e : Nat) (x : TxCtx) (st : NetStatus) : State :=
  { s with
    command := 0
    status := 0
    memOut := s.memOut ++ [⟨x.msgAddr, x.length, .read, [], .localTag, e⟩]
    netOut := s.netOut ++ [sendReq s.cfg e x (messageOf s.cfg e x.length (s.txPayload x))]
    reports := s.reports ++ finalReports e st
    freeCount := s.freeCount + x.length }

/-- TX_FINAL ends the operation (R206, R207). -/
theorem txFinal_messageIssued (hidle : s.activity e = .idle) (st : NetStatus) :
    txFinal e st { s.messageIssued e x with outstanding := s.outstanding } =
      s.transmitted e x st := by
  rw [txFinal_eq]
  simp only [State.messageIssued, State.withMessage_finalised hidle]
  rfl

/-- The events that carry a transmit of endpoint `e` on in timed mode: TX_ISSUE_READ, the memory's
answer, TX_SEND, the network's answer, and TX_FINAL (R353; log 7). -/
abbrev transmissionEvents (e : Nat) (st : NetStatus) : List Event :=
  [.run 0, .memServe .localTag e, .run 0, .netResp ⟨.localTag, e, st⟩, .run 0]

/-- They finish an accepted START. -/
theorem transmissionEvents_transmitted (hv : s.cfg.valid = true) (hm : s.cfg.atomicMode = false)
    (hp : s.pending = []) (hl : e < s.endpoints.length) (hidle : s.activity e = .idle)
    (hfresh : ∀ t ∈ s.outstanding, t.ep ≠ e) (st : NetStatus) :
    repeated step 5 { s.started e x with
      pending := s.pending ++ [.txIssueRead e]
      timeline := transmissionEvents e st } =
      .next { s.transmitted e x st with timeline := [] } := by
  have hissue (rest : List Event) :
      step { s.started e x with
        pending := s.pending ++ [.txIssueRead e]
        timeline := .run 0 :: rest } = .next { s.withRead e x with timeline := rest } :=
    (step_of_run_only (s := s.started e x) hv hp (.txIssueRead e) rest).trans
      (txIssueRead_started (s := { s with timeline := rest }) hm hl hfresh)
  have hserve (rest : List Event) :
      step { s.withRead e x with timeline := .memServe .localTag e :: rest } =
        .next { s.readCompleted e x with
          timeline := rest
          pending := s.pending ++ [.txSend e (messageOf s.cfg e x.length (s.txPayload x))] } := by
    rw [step_of_event (by exact hv) rfl]
    exact memServe_withRead (s := { s with timeline := rest }) hm hl hfresh
  have hsend (rest : List Event) :
      step { s.readCompleted e x with
        timeline := .run 0 :: rest
        pending := s.pending ++ [.txSend e (messageOf s.cfg e x.length (s.txPayload x))] } =
          .next { s.messageIssued e x with timeline := rest } :=
    (step_of_run_only (s := s.readCompleted e x) hv hp (.txSend e _) rest).trans
      (txSend_readCompleted (s := { s with timeline := rest }) hm hl hfresh)
  have hanswer (rest : List Event) :
      step { s.messageIssued e x with timeline := .netResp ⟨.localTag, e, st⟩ :: rest } =
        .next { s.messageIssued e x with
          timeline := rest
          outstanding := s.outstanding
          pending := s.pending ++ [.txFinal e st] } := by
    rw [step_of_event (by exact hv) rfl]
    exact (atPort_netResp e st _).trans
      (txResponded_messageIssued (s := { s with timeline := rest }) hm hl hfresh st)
  have hfinal (rest : List Event) :
      step { s.messageIssued e x with
        timeline := .run 0 :: rest
        outstanding := s.outstanding
        pending := s.pending ++ [.txFinal e st] } =
          .next { s.transmitted e x st with timeline := rest } :=
    (step_of_run_only (s := { s.messageIssued e x with outstanding := s.outstanding }) hv hp
      (.txFinal e st) rest).trans
      (congrArg _ (txFinal_messageIssued (s := { s with timeline := rest }) hidle st))
  simp only [repeated, hissue, hserve, hsend, hanswer, hfinal, andThen_next]

end

/-- Settles O58: in timed mode the START is accepted and its events finish it, and in atomic mode
it runs whole. -/
theorem transmitModesAgree : Obligations.TransmitModesAgree := by
  intro s e off w st hv hshape hm hp hdecode he hread hmode hidle hpos hmax hfresh hcore
  have hl : e < s.endpoints.length := hshape ▸ he
  have hwriteTimed := ((commandWriteTriggers
    { s with timeline := .regWrite .command w :: .run 0 :: transmissionEvents e st } w _ _ hv
    rfl).1 (.inl rfl)).1 hm
  have hexecTimed := startAcceptsTimed
    { s.setCommand w with timeline := transmissionEvents e st } e off hm hv he hread hmode hidle
    hpos hmax
  have hstart := (step_of_run_only (s := s.setCommand w) hv hp .execute
    (transmissionEvents e st)).trans ((executeAndRespond_eq _).trans
      (andThen_eq_next.2 ⟨_, (congrArg (exec · _) hdecode).trans hexecTimed, rfl⟩))
  have hfinish (x : TxCtx) := transmissionEvents_transmitted (x := x)
    (s := (s.setCommand w).respondAccess (.writeDone .command)) hv hm hp hl hidle hfresh st
  have hwriteAtomic := ((commandWriteTriggers { s.inAtomicMode with
      timeline := [.regWrite .command w]
      netAnswers := [st] } w _ _ hv rfl).1 (.inl rfl)).2 rfl
  obtain ⟨-, -, -, hsent⟩ := startRunsWholeInAtomicMode
    { s.inAtomicMode.setCommand w with timeline := [], netAnswers := [st] } e off rfl hv he hshape
    hread hmode hidle hpos hmax hfresh _ _ _ _ rfl rfl rfl rfl
  have hexecAtomic := (hsent _ _ ⟨rfl, .inl ⟨rfl, rfl⟩⟩ (length_readBytes ..) hcore).1 st [] rfl
  refine ⟨_, _, andThen_eq_next.2 ⟨_, hwriteTimed, andThen_eq_next.2 ⟨_, hstart, hfinish _⟩⟩,
    hwriteAtomic.trans
      (andThen_eq_next.2 ⟨_, (congrArg (exec · _) hdecode).trans hexecAtomic, rfl⟩),
    rfl, rfl, rfl, rfl, rfl, rfl, rfl, rfl, rfl, ?_, rfl⟩
  cases st <;> rfl

end Sys2Proof.Machine
